-- ==== Sys2Proof/Word.lean ====
section
/-! DEFINITION. The plain data types of the spec: bytes and words (R9, R10), the fixed-length byte
sequences, the two decoded entities (10_state.md R24, R25), the tagged results (R11) and the answers of
the device boundary (R161, R162). Types only; every computation on them is in Machine/. -/

namespace Sys2Proof

/-- A byte: 8 bits, an unsigned value 0 to 255 (R8). -/
abbrev Byte := BitVec 8
/-- `u8`: the type of `hlen` and `plen` (R10). -/
abbrev U8 := BitVec 8
/-- `u16`: an unsigned 16-bit value in host order (R10, R12). -/
abbrev U16 := BitVec 16
/-- `u32`: an unsigned 32-bit value in host order (R10, R12). -/
abbrev U32 := BitVec 32
/-- `PA`: an IPv4 address held as a `u32` in host order (R10). -/
abbrev PA := U32

/-- A sequence of exactly 2 bytes in wire order, first byte first: the operand of `NTOH16` (R110). -/
structure Wire2 where
  b0 : Byte
  b1 : Byte
deriving DecidableEq, Repr, Inhabited

/-- A sequence of exactly 4 bytes in wire order, first byte first: the operand of `NTOH32` (R111). -/
structure Wire4 where
  b0 : Byte
  b1 : Byte
  b2 : Byte
  b3 : Byte
deriving DecidableEq, Repr, Inhabited

/-- `HA`: a hardware address, a sequence of exactly 6 bytes kept in wire order, byte 0 first on the
wire; never byte-swapped and never a number (R10, R55). -/
structure HA where
  b0 : Byte
  b1 : Byte
  b2 : Byte
  b3 : Byte
  b4 : Byte
  b5 : Byte
deriving DecidableEq, Repr, Inhabited

/-- `HOST_LANE_ORDER`: which end of a host word holds the first wire byte (R6, R114). -/
inductive LaneOrder where
  | big
  | little
deriving DecidableEq, Repr, Inhabited

/-- The source's `EthernetFrame`: the decoded form of a raw frame (R24, R80). -/
structure EthernetFrame where
  /-- `destinationAddress` -/
  dst : HA
  /-- `sourceAddress` -/
  src : HA
  /-- `etherType`, host order -/
  etype : U16
  /-- the bytes after the 14-byte header, as received -/
  payload : List Byte
deriving DecidableEq, Repr

/-- The source's `ArpMessage`: nine fields (R25, R81). `oper` is the raw 16-bit value (R135). -/
structure ArpMessage where
  /-- `hardwareType` -/
  htype : U16
  /-- `protocolType` -/
  ptype : U16
  /-- `hardwareAddressLength` -/
  hlen : U8
  /-- `protocolAddressLength` -/
  plen : U8
  /-- `operation` -/
  oper : U16
  /-- `senderHardwareAddress` -/
  sha : HA
  /-- `senderProtocolAddress`, host order -/
  spa : PA
  /-- `targetHardwareAddress` -/
  tha : HA
  /-- `targetProtocolAddress`, host order -/
  tpa : PA
deriving DecidableEq, Repr

/-- The named failures an operation can return (R11). -/
inductive Failure where
  | frameTooShort
  | unsupported
  | noReply
  | readFailure
  | writeFailure
deriving DecidableEq, Repr

/-- The tagged result of an operation that can fail: `Ok(value)` or a named failure, which carries no
value (R11). -/
inductive Tagged (α : Type) where
  | ok (v : α)
  | raise (f : Failure)
deriving DecidableEq, Repr

/-- What the device answers to one `readFrame` (R161). The dispatcher's view of `failure` is "A
negative-length result" (R151); a frame of 0 bytes is `frame []`, an ordinary frame (D20). -/
inductive ReadAnswer where
  | frame (b : List Byte)
  | failure
deriving DecidableEq, Repr

/-- What the device answers to one `writeFrame` (R162): a count, any natural number, or the failure. -/
inductive WriteAnswer where
  | wrote (count : Nat)
  | failure
deriving DecidableEq, Repr

end Sys2Proof
end

