-- ==== Sys2Proof/Config.lean ====
section
/-! DEFINITION. The implementation parameters (00_scope.md R6) and the constants the wire formats fix
(30_encoding.md R87). A parameter the spec leaves OPEN is an opaque constant: nothing in Lean can prove
a value of it, so a theorem about it holds for every value (log entry 5). -/

namespace Sys2Proof

/-- `LOCAL_HA`: the responder's own hardware address, OPEN (R6). Loaded into the register at reset (R21). -/
opaque Config.localHA : HA
/-- `LOCAL_PA`: the responder's own IPv4 address, OPEN (R6). Loaded into the register at reset (R21). -/
opaque Config.localPA : PA
/-- By how many bytes the receive buffer is larger than the 1000 the source requires, OPEN (R6, R53). -/
opaque Config.maxLenExtra : Nat
/-- `MAXLEN`: the capacity of the receive buffer, any natural number of at least 1000 (R6, R53). -/
def Config.maxLen : Nat := Config.maxLenExtra + 1000
/-- `MAXLEN` lower bound: the smallest receive buffer the source allows (R87). -/
def Config.maxLenBound : Nat := 1000
/-- Whether `n` bytes fit the receive buffer, `n <= MAXLEN` (R53). What fits the smallest buffer allowed fits
every one, and is tested first so that no value of `MAXLEN` is asked for. -/
def Config.fitsBuffer (n : Nat) : Bool := decide (n ≤ Config.maxLenBound) || decide (n ≤ Config.maxLen)
/-- `HOST_LANE_ORDER`: unobservable at every interface of the core; only the lane view reads it (R6, R114). -/
opaque Config.hostLaneOrder : LaneOrder
/-- `PortBinding`: the signal-level form of the two ports, OPEN; no rule reads it (R6, R160, U5). -/
opaque Config.PortBinding : Type

/-- `ETHERTYPE_ARP` (R87). -/
def Config.ethertypeArp : U16 := 0x0806#16
/-- `ETHERTYPE_IPV4` (R87): named by the source, dropped by the core. -/
def Config.ethertypeIpv4 : U16 := 0x0800#16
/-- `HTYPE_ETHERNET` (R87). -/
def Config.htypeEthernet : U16 := 1#16
/-- `PTYPE_IPV4` (R87). -/
def Config.ptypeIpv4 : U16 := 0x0800#16
/-- `HLEN_ETHERNET` (R87). -/
def Config.hlenEthernet : U8 := 6#8
/-- `PLEN_IPV4` (R87). -/
def Config.plenIpv4 : U8 := 4#8
/-- `OP_REQUEST` (R87). -/
def Config.opRequest : U16 := 1#16
/-- `OP_REPLY` (R87). -/
def Config.opReply : U16 := 2#16
/-- `ETH_HDR_LEN`: bytes in the Ethernet header (R87). -/
def Config.ethHdrLen : Nat := 14
/-- `ARP_FIXED_LEN`: bytes in the ARP fixed header (R87). -/
def Config.arpFixedLen : Nat := 8
/-- `ARP_LEN`: bytes in an encoded ARP message (R87). -/
def Config.arpLen : Nat := 28
/-- `TX_FRAME_LEN`: bytes in every transmitted frame (R87). -/
def Config.txFrameLen : Nat := 42

end Sys2Proof
end

