-- ==== Sys2Proof/Machine/Operands.lean ====
section
/-! DEFINITION. Operand forms: the byte-order converter (40_byteorder.md R110 to R114) and the assembly
of fields from byte sequences (30_encoding.md R83, 00_scope.md R8). Everything is total; a field is read
only where a length test has come first (20_memory.md R51). -/

namespace Sys2Proof.Machine

/-- `NTOH16(b) = (b[0] << 8) | b[1]` (R110). -/
def ntoh16 (b : Wire2) : U16 := (b.b0.setWidth 16 <<< 8) ||| b.b1.setWidth 16

/-- `NTOH32(b) = (b[0] << 24) | (b[1] << 16) | (b[2] << 8) | b[3]` (R111). -/
def ntoh32 (b : Wire4) : U32 :=
  (b.b0.setWidth 32 <<< 24) ||| (b.b1.setWidth 32 <<< 16) ||| (b.b2.setWidth 32 <<< 8) ||| b.b3.setWidth 32

/-- `HTON16(v) = [v[15:8]] ++ [v[7:0]]` (R112). -/
def hton16 (v : U16) : Wire2 := ⟨v.extractLsb' 8 8, v.extractLsb' 0 8⟩

/-- `HTON32(v) = [v[31:24]] ++ [v[23:16]] ++ [v[15:8]] ++ [v[7:0]]` (R113). -/
def hton32 (v : U32) : Wire4 :=
  ⟨v.extractLsb' 24 8, v.extractLsb' 16 8, v.extractLsb' 8 8, v.extractLsb' 0 8⟩

/-- `BSWAP16(w) = (w[7:0] << 8) | w[15:8]` (R114). -/
def bswap16 (w : U16) : U16 := ((w.extractLsb' 0 8).setWidth 16 <<< 8) ||| (w.extractLsb' 8 8).setWidth 16

/-- `BSWAP32(w) = (w[7:0] << 24) | (w[15:8] << 16) | (w[23:16] << 8) | w[31:24]` (R114). -/
def bswap32 (w : U32) : U32 :=
  ((w.extractLsb' 0 8).setWidth 32 <<< 24) ||| ((w.extractLsb' 8 8).setWidth 32 <<< 16) |||
    ((w.extractLsb' 16 8).setWidth 32 <<< 8) ||| (w.extractLsb' 24 8).setWidth 32

/-- `LOAD_16(b)`: the word whose lane `i` holds `b[i]`; lane 0 is the low byte when the host is little,
the high byte when it is big (R114). -/
def load16 (o : LaneOrder) (b : Wire2) : U16 :=
  match o with
  | .big => b.b0 ++ b.b1
  | .little => b.b1 ++ b.b0

/-- `LOAD_32(b)` (R114). -/
def load32 (o : LaneOrder) (b : Wire4) : U32 :=
  match o with
  | .big => b.b0 ++ b.b1 ++ b.b2 ++ b.b3
  | .little => b.b3 ++ b.b2 ++ b.b1 ++ b.b0

/-- `NTOH16` as a lane-level implementation does it: load the word, swap on a little host (R114). -/
def laneNtoh16 (o : LaneOrder) (b : Wire2) : U16 :=
  match o with
  | .big => load16 o b
  | .little => bswap16 (load16 o b)

/-- `NTOH32` as a lane-level implementation does it (R114). -/
def laneNtoh32 (o : LaneOrder) (b : Wire4) : U32 :=
  match o with
  | .big => load32 o b
  | .little => bswap32 (load32 o b)

/-- The lanes of a 16-bit word in wire order: the inverse of `load16` (R114). -/
def store16 (o : LaneOrder) (w : U16) : Wire2 :=
  match o with
  | .big => ⟨w.extractLsb' 8 8, w.extractLsb' 0 8⟩
  | .little => ⟨w.extractLsb' 0 8, w.extractLsb' 8 8⟩

/-- The lanes of a 32-bit word in wire order: the inverse of `load32` (R114). -/
def store32 (o : LaneOrder) (w : U32) : Wire4 :=
  match o with
  | .big => ⟨w.extractLsb' 24 8, w.extractLsb' 16 8, w.extractLsb' 8 8, w.extractLsb' 0 8⟩
  | .little => ⟨w.extractLsb' 0 8, w.extractLsb' 8 8, w.extractLsb' 16 8, w.extractLsb' 24 8⟩

/-- `HTON16` as a lane-level implementation does it: "the inverse, with the same swap" (R114). -/
def laneHton16 (o : LaneOrder) (v : U16) : Wire2 :=
  match o with
  | .big => store16 o v
  | .little => store16 o (bswap16 v)

/-- `HTON32` as a lane-level implementation does it (R114). -/
def laneHton32 (o : LaneOrder) (v : U32) : Wire4 :=
  match o with
  | .big => store32 o v
  | .little => store32 o (bswap32 v)

/-- The bytes of a 2-byte sequence, first on the wire first. -/
def wire2Bytes (b : Wire2) : List Byte := [b.b0, b.b1]
/-- The bytes of a 4-byte sequence, first on the wire first. -/
def wire4Bytes (b : Wire4) : List Byte := [b.b0, b.b1, b.b2, b.b3]
/-- The bytes of a hardware address, in wire order, unconverted (R55). -/
def haBytes (a : HA) : List Byte := [a.b0, a.b1, a.b2, a.b3, a.b4, a.b5]
/-- A 16-bit field as it lies on the wire (R54). -/
def u16Bytes (v : U16) : List Byte := wire2Bytes (hton16 v)
/-- A 32-bit field as it lies on the wire (R54). -/
def u32Bytes (v : U32) : List Byte := wire4Bytes (hton32 v)

/-- `b[i]` (R8); a byte the sequence does not have is taken as zero, which R84 says of `W22` and which
every other use rules out by a length test. -/
def byteAt (b : List Byte) (i : Nat) : Byte := b.getD i 0#8
/-- `b[o ..+ 2]` (R8). -/
def wire2At (b : List Byte) (o : Nat) : Wire2 := ⟨byteAt b o, byteAt b (o + 1)⟩
/-- `b[o ..+ 4]` (R8). -/
def wire4At (b : List Byte) (o : Nat) : Wire4 := ⟨byteAt b o, byteAt b (o + 1), byteAt b (o + 2), byteAt b (o + 3)⟩
/-- The `HA` field at offset `o`: `b[o ..+ 6]` unchanged (R83). -/
def haAt (b : List Byte) (o : Nat) : HA :=
  ⟨byteAt b o, byteAt b (o + 1), byteAt b (o + 2), byteAt b (o + 3), byteAt b (o + 4), byteAt b (o + 5)⟩
/-- The 16-bit field at offset `o` (R83). -/
def u16At (b : List Byte) (o : Nat) : U16 := ntoh16 (wire2At b o)
/-- The 32-bit field at offset `o` (R83). -/
def u32At (b : List Byte) (o : Nat) : U32 := ntoh32 (wire4At b o)
/-- `b[o ..]` (R8). -/
def fromOffset (b : List Byte) (o : Nat) : List Byte := b.drop o

end Sys2Proof.Machine
end

