-- ==== Sys2Proof/Machine/State.lean ====
section
/-! DEFINITION. The state of the core as plain data (10_state.md R20), the state after reset (R31), and
the reasons for which a step stops.

The working registers are options because "holds no value" is the spec's own state of a register (R27,
R28), not for want of a reset value (log entry 6). -/

namespace Sys2Proof.Machine

/-- `PHASE`, the core's program counter: seven values, no encoding (R22). -/
inductive Phase where
  | readFrame
  | decodeEthernet
  | classify
  | decodeArp
  | respond
  | encodeAndWrite
  | halted
deriving DecidableEq, Repr

/-- The outcome event, emitted once per cycle (R181). Its code numbers are in Flags.lean. -/
inductive OutcomeCode where
  | replied
  | dropEthTooShort
  | dropEthertype
  | dropArpTooShort
  | dropArpUnsupported
  | dropNoReply
  | writeFailed
  | readFailed
deriving DecidableEq, Repr

/-- The two ports: at most one transaction is in flight, over both together (R62, R160). -/
inductive Port where
  /-- no transaction in flight -/
  | idle
  /-- a `readFrame` has been issued and not answered -/
  | reading
  /-- a `writeFrame` of these bytes has been issued and not answered -/
  | writing (b : List Byte)
deriving DecidableEq, Repr

/-- What the environment can see the core do (R29, R164): a transaction issued, its answer, an outcome. -/
inductive Event where
  | readIssued (maxLength : Nat)
  | readAnswered (a : ReadAnswer)
  | writeIssued (b : List Byte)
  | writeAnswered (a : WriteAnswer)
  | outcome (c : OutcomeCode)
deriving DecidableEq, Repr

/-- The result of `cycle`: the frame written, if any; the outcome; whether the core halts (R158). -/
structure CycleResult where
  tx : Option (List Byte)
  outcome : OutcomeCode
  halt : Bool
deriving DecidableEq, Repr

/-- The values the named operations return (R88). -/
inductive Value where
  | u16 (v : U16)
  | u32 (v : U32)
  | wire2 (b : Wire2)
  | wire4 (b : Wire4)
  | bytes (b : List Byte)
  | frame (f : EthernetFrame)
  | message (m : ArpMessage)
  | boolean (b : Bool)
  | count (n : Nat)
  | cycleResult (r : CycleResult)
deriving DecidableEq, Repr

/-- A frame buffer: the bytes that hold a value, by address, in canonical form (strictly rising
addresses). An address that is not listed holds no value (R27, R51; log entry 7). -/
abbrev Memory := List Host.Cell

/-- The canonical form of a buffer: the addresses strictly rise. -/
def Memory.wf : Memory → Bool
  | [] => true
  | [_] => true
  | c :: d :: rest => decide (c.1 < d.1) && Memory.wf (d :: rest)

/-- The two address spaces (R50). -/
inductive Space where
  | rxbuf
  | txbuf
deriving DecidableEq, Repr

/-- The working registers, by the groups of R23 to R26. -/
inductive Reg where
  | rxbuf
  | rxlen
  | eth
  | arp
  | rpl
  | txbuf
  | txlen
deriving DecidableEq, Repr

/-- Why a step stops. Every reason is safe: the model stops where the spec gives no result. -/
inductive Fault where
  /-- A working register that holds no value was read (R27, U13). Raised by the phases and by a buffer
  read. Safe. -/
  | noValue (r : Reg)
  /-- A buffer was read outside its valid range (R51, U14). Raised by a buffer read. Safe. -/
  | outsideBuffer (sp : Space) (off n : Nat)
  /-- A frame of more bytes than the receive buffer holds: R161 rules such an answer out and no address
  of the buffer could hold its last byte. Raised by the read transaction and by the decoder. Safe. -/
  | frameOverCapacity (len : Nat)
  /-- A transaction was issued, or a frame taken, while another transaction is in flight; R62 rules it
  out. Raised by the transactions, the phases and the frame classes. Safe. -/
  | transactionInFlight
deriving DecidableEq, Repr

/-- Why an instruction has no meaning. No instruction of this model is refused. -/
inductive Refusal where
  /-- The instruction has no meaning yet. Raised only by a refused arm of exec, of which there is none.
  Safe. -/
  | notModelled (mnemonic : String)
deriving DecidableEq, Repr

/-- The state of the core (R20, R31), and beside it the environment's side of the two ports and the
core's outputs, which are the model's own fields (log entries 2, 3, 4). -/
structure State where
  /-- `PHASE` (R22) -/
  phase : Phase
  /-- `LOCAL_HA` (R21) -/
  localHA : HA
  /-- `LOCAL_PA` (R21) -/
  localPA : PA
  /-- `RXBUF` (R23, R50) -/
  rxbuf : Memory
  /-- `RXLEN` (R23) -/
  rxlen : Option Nat
  /-- `ETH.dst`, `ETH.src`, `ETH.etype`, `ETH.payload` (R24) -/
  eth : Option EthernetFrame
  /-- the nine fields of `ARP` (R25) -/
  arp : Option ArpMessage
  /-- the nine fields of `RPL` (R26) -/
  rpl : Option ArpMessage
  /-- `TXBUF` (R26, R50) -/
  txbuf : Memory
  /-- `TXLEN` (R26) -/
  txlen : Option Nat
  /-- the transaction in flight on the ports, if any (R31, R62) -/
  port : Port
  /-- the device's answers to the next `readFrame` calls, as far as they are known, oldest first (R161, R89);
  `deliver` adds to them in a run (log entry 2); model's own -/
  rxAnswers : List ReadAnswer
  /-- the device's answers to the next `writeFrame` calls, as far as they are known, oldest first (R162, R89);
  `deliver` adds to them in a run (log entry 2); model's own -/
  wrAnswers : List WriteAnswer
  /-- what the environment has seen, oldest first (R164); an output, the model's own -/
  trace : List Event
  /-- what the last operation invoked on its own returned (R11, R184); an output, the model's own -/
  ret : Option (Tagged Value)
deriving DecidableEq, Repr

/-- The state after reset (R31, R210): `PHASE` is `ReadFrame`, the local identity is the parameters', no
working register holds a value, no transaction is in flight and no outcome is pending. The model's own
fields are empty (log entry 17). -/
def State.reset : State where
  phase := .readFrame
  localHA := Config.localHA
  localPA := Config.localPA
  rxbuf := []
  rxlen := none
  eth := none
  arp := none
  rpl := none
  txbuf := []
  txlen := none
  port := .idle
  rxAnswers := []
  wrAnswers := []
  trace := []
  ret := none

end Sys2Proof.Machine
end

