-- ==== Sys2Proof/Machine/Ops.lean ====
section
/-! DEFINITION. The named operations over the buffers, the working registers, the ports and the outputs,
and what the spec has in the place of exceptions: the drop, the end of a cycle, the halt and the reset
(60_exceptions.md R183 to R187, 70_reset_and_hazards.md R210). -/

namespace Sys2Proof.Machine

/-- What a step answers. -/
abbrev Out := Host.Outcome State Fault Refusal

/-- Go on from a next state; a stop stays a stop. -/
def andThen (o : Out) (k : State → Out) : Out :=
  match o with
  | .next s => k s
  | .fault r => .fault r
  | .refused r => .refused r

/-! The two buffers (20_memory.md R50, R51). -/

/-- The byte a buffer holds at an address, if any. -/
def bufByte : Memory → Nat → Option Byte
  | [], _ => none
  | (a, v) :: rest, x => if a = x then some v else bufByte rest x

/-- Store one byte; the addresses stay strictly rising. -/
def bufStore : Memory → Nat → Byte → Memory
  | [], x, v => [(x, v)]
  | (a, w) :: rest, x, v =>
      if x < a then (x, v) :: (a, w) :: rest
      else if x = a then (x, v) :: rest
      else (a, w) :: bufStore rest x v

/-- Store a sequence of bytes from an address on (`MemWrite`, R13). -/
def bufStoreAll : Memory → Nat → List Byte → Memory
  | m, _, [] => m
  | m, x, v :: vs => bufStoreAll (bufStore m x v) (x + 1) vs

/-- The `n` bytes from an address on, if every one holds a value. -/
def bufLoad : Memory → Nat → Nat → Option (List Byte)
  | _, _, 0 => some []
  | m, x, n + 1 =>
      match bufByte m x, bufLoad m (x + 1) n with
      | some v, some vs => some (v :: vs)
      | _, _ => none

/-- A buffer that holds exactly these bytes, from address 0 on: what a capture leaves (R59). -/
def bufCapture (b : List Byte) : Memory := bufStoreAll [] 0 b

/-- The contents of an address space. -/
def spaceMem (sp : Space) (s : State) : Memory :=
  match sp with
  | .rxbuf => s.rxbuf
  | .txbuf => s.txbuf

/-- The length register that bounds an address space. -/
def spaceLen (sp : Space) (s : State) : Option Nat :=
  match sp with
  | .rxbuf => s.rxlen
  | .txbuf => s.txlen

/-- The register names of an address space, for faults: the buffer and its length. -/
def spaceReg (sp : Space) : Reg :=
  match sp with
  | .rxbuf => .rxbuf
  | .txbuf => .txbuf

/-- The length register's name of an address space. -/
def spaceLenReg (sp : Space) : Reg :=
  match sp with
  | .rxbuf => .rxlen
  | .txbuf => .txlen

/-- `MemRead(space, off, n)`: defined only within the valid range, else a fault (R51, R27). -/
def memRead (sp : Space) (off n : Nat) (s : State) : Except Fault (List Byte) :=
  match spaceLen sp s with
  | none => .error (.noValue (spaceLenReg sp))
  | some len =>
      if off + n ≤ len then
        match bufLoad (spaceMem sp s) off n with
        | some b => .ok b
        | none => .error (.noValue (spaceReg sp))
      else .error (.outsideBuffer sp off n)

/-- The frame in hand: `MemRead(RXBUF, 0, RXLEN)` (R152). -/
def heldFrame (s : State) : Except Fault (List Byte) :=
  match s.rxlen with
  | none => .error (.noValue .rxlen)
  | some len => memRead .rxbuf 0 len s

/-- `MemWrite(RXBUF, 0, len(b), b); RXLEN <- len(b)`: the frame is captured whole, and bytes at and above
`RXLEN` hold no value (R23, R59, R151). -/
def captureFrame (b : List Byte) (s : State) : State :=
  { s with rxbuf := bufCapture b, rxlen := some b.length }

/-- `MemWrite(TXBUF, 0, 42, t); TXLEN <- 42` (R156). -/
def loadTx (t : List Byte) (s : State) : State :=
  { s with txbuf := bufCapture t, txlen := some Config.txFrameLen }

/-! The working registers (10_state.md R27, R28). -/

/-- The value of a working register, or the fault of reading one that holds none (R27). -/
def regValue {α : Type} (r : Reg) (v : Option α) : Except Fault α :=
  match v with
  | some a => .ok a
  | none => .error (.noValue r)

/-- All of `RXBUF`, `RXLEN`, `ETH`, `ARP`, `RPL`, `TXBUF`, `TXLEN` hold no value (R28). -/
def discardWorking (s : State) : State :=
  { s with rxbuf := [], rxlen := none, eth := none, arp := none, rpl := none, txbuf := [], txlen := none }

/-- `ETH <- f` (R24, R152). -/
def setEth (f : EthernetFrame) (s : State) : State := { s with eth := some f }

/-- `ARP <- m` (R25, R154). -/
def setArp (m : ArpMessage) (s : State) : State := { s with arp := some m }

/-- `RPL <- m` (R26, R155). -/
def setRpl (m : ArpMessage) (s : State) : State := { s with rpl := some m }

/-- `PHASE <- p` (R13). -/
def setPhase (p : Phase) (s : State) : State := { s with phase := p }

/-- Something the environment sees (R164). -/
def record (e : Event) (s : State) : State := { s with trace := s.trace ++ [e] }

/-- `emit OUTCOME(code)` (R181). -/
def emit (c : OutcomeCode) (s : State) : State := record (.outcome c) s

/-! The core's "exceptions" and the return from them. -/

/-- The return (R187): the entry to `ReadFrame`, at which no working register holds a value (R28). -/
def enterReadFrame (s : State) : State := setPhase .readFrame (discardWorking s)

/-- The end of a cycle that goes on: the outcome is emitted, every working register discarded, and the
next phase is `ReadFrame`. With a code of 1 to 5 this is the drop (R183); with `REPLIED` or
`WRITE_FAILED` the end of a cycle that wrote (R156, R186). -/
def endCycle (c : OutcomeCode) (s : State) : State := enterReadFrame (emit c s)

/-- The fatal read failure: `READ_FAILED` is emitted and the core halts (R151, R185). -/
def halt (s : State) : State := setPhase .halted (discardWorking (emit .readFailed s))

/-- Reset by the environment (R210, R214), at any moment and in any phase (R211, R215): the local
identity and the device's answers are what the environment supplies again; nothing else survives but the
trace, to which no outcome is added (log entries 15 and 16). It is no transition of the core. DESIGN CHOICE (log
entry 5), unsafe: whether a restart may bring another `MAXLEN` (R212, R213) the spec leaves open; here it is one
constant for all resets. DESIGN CHOICE (log entry 15), unsafe: whether the record of what was seen shows the reset it
leaves open too; here no event is added for it. -/
def hostReset (la : HA) (lp : PA) (rx : List ReadAnswer) (wr : List WriteAnswer) (s : State) : State :=
  { State.reset with localHA := la, localPA := lp, rxAnswers := rx, wrAnswers := wr, trace := s.trace }

/-- The device's next answers become known, after those still standing (R161, R162): the environment's act, in any
state, and no transition of the core. A core that waits for one takes it up at its next step (R195, R224; log
entry 2). -/
def deliver (rx : List ReadAnswer) (wr : List WriteAnswer) (s : State) : State :=
  { s with rxAnswers := s.rxAnswers ++ rx, wrAnswers := s.wrAnswers ++ wr }

/-! The transactions (44_frame_dispatcher.md R160 to R162). -/

/-- The bytes an answer to a read carries. -/
def answerLength : ReadAnswer → Nat
  | .frame b => b.length
  | .failure => 0

/-- A `readFrame` goes out on an idle port (R161). -/
def startRead (maxLength : Nat) (s : State) : State := record (.readIssued maxLength) { s with port := .reading }

/-- Issue a `readFrame` on an idle port (R161); a read in flight stays in flight. -/
def issueRead (maxLength : Nat) (s : State) : Except Fault State :=
  match s.port with
  | .idle => .ok (startRead maxLength s)
  | .reading => .ok s
  | .writing _ => .error .transactionInFlight

/-- The device answers the read in flight: one answer is consumed (R58) and the port is idle. -/
def answerRead (a : ReadAnswer) (rest : List ReadAnswer) (s : State) : State :=
  record (.readAnswered a) { s with port := .idle, rxAnswers := rest }

/-- `readFrame(maxLength)` (R161), with `maxLength` always `MAXLEN`: `none` while the device has not answered
(R195, R224), else its answer, of at most `MAXLEN` bytes. -/
def readTransaction (maxLength : Nat) (s : State) : Except Fault (Option ReadAnswer × State) :=
  match issueRead maxLength s with
  | .error f => .error f
  | .ok s1 =>
      match s1.rxAnswers with
      | [] => .ok (none, s1)
      | a :: rest =>
          if Config.fitsBuffer (answerLength a) then .ok (some a, answerRead a rest s1)
          else .error (.frameOverCapacity (answerLength a))

/-- A `writeFrame` goes out on an idle port: the bytes are the environment's from here on (R162). -/
def startWrite (b : List Byte) (s : State) : State := record (.writeIssued b) { s with port := .writing b }

/-- Issue a `writeFrame` on an idle port: the frame is handed to the environment (R162); the same write in
flight stays in flight. -/
def issueWrite (b : List Byte) (s : State) : Except Fault State :=
  match s.port with
  | .idle => .ok (startWrite b s)
  | .reading => .error .transactionInFlight
  | .writing b' => if b' = b then .ok s else .error .transactionInFlight

/-- The device answers the write in flight: one answer is consumed and the port is idle. -/
def answerWrite (a : WriteAnswer) (rest : List WriteAnswer) (s : State) : State :=
  record (.writeAnswered a) { s with port := .idle, wrAnswers := rest }

/-- Wait for the device's answer to the write in flight: `none` while it has not answered (R224). -/
def awaitWrite (s : State) : Option WriteAnswer × State :=
  match s.wrAnswers with
  | [] => (none, s)
  | a :: rest => (some a, answerWrite a rest s)

/-- `writeFrame(bytes)` (R162). -/
def writeTransaction (b : List Byte) (s : State) : Except Fault (Option WriteAnswer × State) :=
  match issueWrite b s with
  | .error f => .error f
  | .ok s1 => .ok (awaitWrite s1)

/-! Operations invoked on their own (R88, R184). -/

/-- An operation is available whenever the core is not `Halted` (R190); in `Halted` nothing changes
(R157). -/
def unlessHalted (s : State) (k : State → Out) : Out :=
  match s.phase with
  | .halted => .next s
  | .readFrame => k s
  | .decodeEthernet => k s
  | .classify => k s
  | .decodeArp => k s
  | .respond => k s
  | .encodeAndWrite => k s

/-- A frame is taken only when no transaction is in flight (R62, R221). -/
def whenPortIdle (s : State) (k : State → Out) : Out :=
  match s.port with
  | .idle => k s
  | .reading => .fault .transactionInFlight
  | .writing _ => .fault .transactionInFlight

/-- What an operation returned (R11). -/
def setRet (r : Tagged Value) (s : State) : State := { s with ret := some r }

/-- A functional unit returns its tagged result to whoever asked and touches nothing else (R11, R29). -/
def returnValue (r : Tagged Value) (s : State) : Out := unlessHalted s fun s => .next (setRet r s)

end Sys2Proof.Machine
end

