-- ==== Sys2Proof/Machine/EthernetCodec.lean ====
section
/-! DEFINITION. The Ethernet frame parser and serializer (41_ethernet_codec.md R120, R121): pure
functions (R123), and their meanings when invoked on their own. -/

namespace Sys2Proof.Machine

/-- `decodeEthernet(b)` (R120): fails exactly when `len(b) < 14`. -/
def decodeEthernet (b : List Byte) : Tagged EthernetFrame :=
  if b.length < Config.ethHdrLen then .raise .frameTooShort
  else .ok { dst := haAt b 0, src := haAt b 6, etype := u16At b 12, payload := fromOffset b 14 }

/-- `encodeEthernet(f) = f.dst ++ f.src ++ HTON16(f.etype) ++ f.payload` (R121). -/
def encodeEthernet (f : EthernetFrame) : List Byte := haBytes f.dst ++ haBytes f.src ++ u16Bytes f.etype ++ f.payload

/-- A tagged frame as a tagged value. -/
def frameResult : Tagged EthernetFrame → Tagged Value
  | .ok f => .ok (.frame f)
  | .raise e => .raise e

/-- `decodeEthernet` on its own: a failure just means the result is the failure (R184). -/
def execDecodeEthernet (b : List Byte) (s : State) : Out := returnValue (frameResult (decodeEthernet b)) s

/-- `encodeEthernet` on its own (R121). -/
def execEncodeEthernet (f : EthernetFrame) (s : State) : Out := returnValue (.ok (.bytes (encodeEthernet f))) s

end Sys2Proof.Machine
end

