-- ==== Sys2Proof/Machine/ArpCodec.lean ====
section
/-! DEFINITION. The ARP message decoder and encoder (42_arp_codec.md R130 to R132): pure functions
(R137), their meanings when invoked on their own, and the shorthands of R89. -/

namespace Sys2Proof.Machine

/-- `validArp(m)` (R132): reads four fields and nothing else. -/
def validArp (m : ArpMessage) : Bool :=
  m.htype == Config.htypeEthernet && m.ptype == Config.ptypeIpv4 && m.hlen == Config.hlenEthernet &&
    m.plen == Config.plenIpv4

/-- `need = 8 + 2*hlen + 2*plen`, in natural numbers (R134). -/
def arpNeed (hlen plen : U8) : Nat := 8 + 2 * hlen.toNat + 2 * plen.toNat

/-- The message at the start of a byte sequence: steps 2 and 5 of R130, by the layout of R81. -/
def arpFieldsOf (p : List Byte) : ArpMessage where
  htype := u16At p 0
  ptype := u16At p 2
  hlen := byteAt p 4
  plen := byteAt p 5
  oper := u16At p 6
  sha := haAt p 8
  spa := u32At p 14
  tha := haAt p 18
  tpa := u32At p 24

/-- `decodeArp(p)` (R130): the order of the tests is part of the rule (C1, D10). -/
def decodeArp (p : List Byte) : Tagged ArpMessage :=
  if p.length < Config.arpFixedLen then .raise .frameTooShort
  else if u16At p 0 ≠ Config.htypeEthernet ∨ u16At p 2 ≠ Config.ptypeIpv4 ∨ byteAt p 4 ≠ Config.hlenEthernet ∨
      byteAt p 5 ≠ Config.plenIpv4 then .raise .unsupported
  else if p.length < arpNeed (byteAt p 4) (byteAt p 5) then .raise .frameTooShort
  else .ok (arpFieldsOf p)

/-- `encodeArp(m)` (R131): always the fixed 6/4/6/4 layout, whatever `hlen` and `plen` say. -/
def encodeArp (m : ArpMessage) : List Byte :=
  u16Bytes m.htype ++ u16Bytes m.ptype ++ [m.hlen] ++ [m.plen] ++ u16Bytes m.oper ++ haBytes m.sha ++
    u32Bytes m.spa ++ haBytes m.tha ++ u32Bytes m.tpa

/-- A tagged message as a tagged value. -/
def messageResult : Tagged ArpMessage → Tagged Value
  | .ok m => .ok (.message m)
  | .raise e => .raise e

/-- `decodeArp` on its own (R130, R184). -/
def execDecodeArp (p : List Byte) (s : State) : Out := returnValue (messageResult (decodeArp p)) s

/-- `encodeArp` on its own (R131): `m` need not be valid. -/
def execEncodeArp (m : ArpMessage) (s : State) : Out := returnValue (.ok (.bytes (encodeArp m))) s

/-- `validArp` on its own (R132). -/
def execValidArp (m : ArpMessage) (s : State) : Out := returnValue (.ok (.boolean (validArp m))) s

/-- `ARPMSG(oper, sha, spa, tha, tpa)` (R89). -/
def arpMsg (oper : U16) (sha : HA) (spa : PA) (tha : HA) (tpa : PA) : List Byte :=
  encodeArp ⟨1#16, 0x0800#16, 6#8, 4#8, oper, sha, spa, tha, tpa⟩

/-- `ARPREQ(dst, src, sha, spa, tpa)` (R89). -/
def arpReq (dst src sha : HA) (spa tpa : PA) : List Byte :=
  encodeEthernet ⟨dst, src, 0x0806#16, arpMsg 1#16 sha spa ⟨0#8, 0#8, 0#8, 0#8, 0#8, 0#8⟩ tpa⟩

/-- `ARPREP(dst, src, sha, spa, tha, tpa)` (R89). -/
def arpRep (dst src sha : HA) (spa : PA) (tha : HA) (tpa : PA) : List Byte :=
  encodeEthernet ⟨dst, src, 0x0806#16, arpMsg 2#16 sha spa tha tpa⟩

end Sys2Proof.Machine
end

