-- ==== Sys2Proof/Machine/ByteOrder.lean ====
section
/-! DEFINITION. The meanings of the byte-order converter's six operations (40_byteorder.md R110 to R114).
The conversions themselves are in Operands.lean. -/

namespace Sys2Proof.Machine

/-- `NTOH16` (R110): no flags, no exceptions. -/
def execNtoh16 (b : Wire2) (s : State) : Out := returnValue (.ok (.u16 (ntoh16 b))) s

/-- `NTOH32` (R111). -/
def execNtoh32 (b : Wire4) (s : State) : Out := returnValue (.ok (.u32 (ntoh32 b))) s

/-- `HTON16` (R112). -/
def execHton16 (v : U16) (s : State) : Out := returnValue (.ok (.wire2 (hton16 v))) s

/-- `HTON32` (R113). -/
def execHton32 (v : U32) (s : State) : Out := returnValue (.ok (.wire4 (hton32 v))) s

/-- `BSWAP16` (R114). -/
def execBswap16 (w : U16) (s : State) : Out := returnValue (.ok (.u16 (bswap16 w))) s

/-- `BSWAP32` (R114). -/
def execBswap32 (w : U32) (s : State) : Out := returnValue (.ok (.u32 (bswap32 w))) s

end Sys2Proof.Machine
end

