-- ==== Sys2Proof/Machine/Device.lean ====
section
/-! DEFINITION. The meanings of the two transactions invoked on their own (44_frame_dispatcher.md R161,
R162): the device's answer is the result; handling it is the dispatcher's part (R151, R156), so neither
moves `PHASE` (log entry 12). -/

namespace Sys2Proof.Machine

/-- The result of a `readFrame`: the frame's bytes or the failure (R161). -/
def readResult : ReadAnswer → Tagged Value
  | .frame b => .ok (.bytes b)
  | .failure => .raise .readFailure

/-- The result of a `writeFrame`: the count, which is not examined, or the failure (R162, D14). -/
def writeResult : WriteAnswer → Tagged Value
  | .wrote n => .ok (.count n)
  | .failure => .raise .writeFailure

/-- `readFrame(maxLength)` (R161): while the device has not answered, the transaction stays in flight. An
answer of more bytes than the operand allows is none R161 admits. DESIGN CHOICE (log entry 9), unsafe: the spec does
not say what a `readFrame` invoked on its own does while the dispatcher's read is in flight; here it takes up that
read and its answer goes to `ret`, so that phase `ReadFrame` issues a read a second time. -/
def execReadFrame (maxLength : Nat) (s : State) : Out :=
  unlessHalted s fun s =>
    match readTransaction maxLength s with
    | .error f => .fault f
    | .ok (none, s1) => .next s1
    | .ok (some a, s1) =>
        if answerLength a ≤ maxLength then .next (setRet (readResult a) s1)
        else .fault (.frameOverCapacity (answerLength a))

/-- `writeFrame(bytes)` (R162): while the device has not answered, the transaction stays in flight. DESIGN CHOICE
(log entry 9), unsafe: the spec does not say what a `writeFrame` of the reply's bytes invoked on its own does while
the dispatcher's write of them is in flight; here it takes up that write and its answer goes to `ret`, so that phase
`EncodeAndWrite` sends the reply a second time. -/
def execWriteFrame (bytes : List Byte) (s : State) : Out :=
  unlessHalted s fun s =>
    match writeTransaction bytes s with
    | .error f => .fault f
    | .ok (none, s1) => .next s1
    | .ok (some a, s1) => .next (setRet (writeResult a) s1)

end Sys2Proof.Machine
end

