-- ==== Sys2Proof/Machine/Flags.lean ====
section
/-! DEFINITION. The core has no flags and no condition codes (10_state.md R30): no operation leaves
anything behind for a later one. What says how a cycle ended is the outcome event; its code numbers and
the error classes they belong to are here (60_exceptions.md R180, R181). -/

namespace Sys2Proof.Machine

/-- The code number of an outcome (R181). -/
def outcomeNumber : OutcomeCode → Nat
  | .replied => 0
  | .dropEthTooShort => 1
  | .dropEthertype => 2
  | .dropArpTooShort => 3
  | .dropArpUnsupported => 4
  | .dropNoReply => 5
  | .writeFailed => 6
  | .readFailed => 7

/-- The four error classes of the source (R180). -/
inductive ErrorClass where
  | deviceReadFailure
  | deviceWriteFailure
  | frameTooShort
  | unsupported
deriving DecidableEq, Repr

/-- The error class an outcome belongs to (R181); `REPLIED` is no error. -/
def outcomeErrorClass : OutcomeCode → Option ErrorClass
  | .replied => none
  | .dropEthTooShort => some .frameTooShort
  | .dropEthertype => some .unsupported
  | .dropArpTooShort => some .frameTooShort
  | .dropArpUnsupported => some .unsupported
  | .dropNoReply => some .unsupported
  | .writeFailed => some .deviceWriteFailure
  | .readFailed => some .deviceReadFailure

/-- Only the read failure is fatal (R180, R185, R186). -/
def errorIsFatal : ErrorClass → Bool
  | .deviceReadFailure => true
  | .deviceWriteFailure => false
  | .frameTooShort => false
  | .unsupported => false

/-- Whether an outcome is a drop: codes 1 to 5 (R183). -/
def isDrop (c : OutcomeCode) : Bool := decide (1 ≤ outcomeNumber c) && decide (outcomeNumber c ≤ 5)

/-- The outcome of a cycle whose write was answered (R156, R186): the count is not examined (D14). -/
def writeOutcome : WriteAnswer → OutcomeCode
  | .wrote _ => .replied
  | .failure => .writeFailed

end Sys2Proof.Machine
end

