-- ==== Sys2Proof/Machine/Responder.lean ====
section
/-! DEFINITION. The ARP reply responder (43_arp_responder.md R140, R142): pure functions (R143), and their
meanings when invoked on their own. -/

namespace Sys2Proof.Machine

/-- The reply to a request: step 2 of R140. The four format fields are copied; nothing is taken from
`request.tha` (R144). -/
def replyTo (request : ArpMessage) (la : HA) : ArpMessage where
  htype := request.htype
  ptype := request.ptype
  hlen := request.hlen
  plen := request.plen
  oper := Config.opReply
  sha := la
  spa := request.tpa
  tha := request.sha
  tpa := request.spa

/-- `handle(request, LA, LP)` (R140). `LP` is read by no step (R141). -/
def handle (request : ArpMessage) (la : HA) (_lp : PA) : Tagged ArpMessage :=
  if request.oper ≠ Config.opRequest ∨ validArp request = false then .raise .noReply
  else .ok (replyTo request la)

/-- `wrapReply(request, reply, LA)` (R142): the destination is the request's `sha`. -/
def wrapReply (request reply : ArpMessage) (la : HA) : EthernetFrame where
  dst := request.sha
  src := la
  etype := Config.ethertypeArp
  payload := encodeArp reply

/-- `handle` on its own (R140, R184): its operands are the instruction's, not the registers. -/
def execHandle (request : ArpMessage) (la : HA) (lp : PA) (s : State) : Out :=
  returnValue (messageResult (handle request la lp)) s

/-- `wrapReply` on its own (R142). -/
def execWrapReply (request reply : ArpMessage) (la : HA) (s : State) : Out :=
  returnValue (.ok (.frame (wrapReply request reply la))) s

end Sys2Proof.Machine
end

