-- ==== Sys2Proof/Machine/Dispatcher.lean ====
section
/-! DEFINITION. The frame dispatcher's phases (44_frame_dispatcher.md R150 to R157), one function a
phase, written from that phase's pseudocode; `phaseStep`, the step of one phase (R150); and `cycle`, the
big-step form (R158), with its meaning when invoked on its own. -/

namespace Sys2Proof.Machine

/-- Phase `ReadFrame` (R151): a blocking read; a frame is captured, a failure halts the core. -/
def phaseReadFrame (s : State) : Out :=
  match readTransaction Config.maxLen s with
  | .error f => .fault f
  | .ok (none, s1) => .next s1
  | .ok (some (.frame b), s1) => .next (setPhase .decodeEthernet (captureFrame b s1))
  | .ok (some .failure, s1) => .next (halt s1)

/-- Phase `DecodeEthernet` on the bytes of the frame in hand (R152). -/
def decodeEthernetOn (b : List Byte) (s : State) : Out :=
  match decodeEthernet b with
  | .ok f => .next (setPhase .classify (setEth f s))
  | .raise _ => .next (endCycle .dropEthTooShort s)

/-- Phase `DecodeEthernet` (R152): reads `RXBUF[0 ..+ RXLEN]`. -/
def phaseDecodeEthernet (s : State) : Out :=
  match heldFrame s with
  | .error f => .fault f
  | .ok b => decodeEthernetOn b s

/-- Phase `Classify` (R153): reads `ETH.etype`. -/
def phaseClassify (s : State) : Out :=
  match regValue .eth s.eth with
  | .error f => .fault f
  | .ok f =>
      if f.etype = Config.ethertypeArp then .next (setPhase .decodeArp s)
      else .next (endCycle .dropEthertype s)

/-- The drop `decodeArp`'s failure leads to (R154): `Unsupported` has a code of its own. -/
def arpDropOutcome (f : Failure) : OutcomeCode := if f = .unsupported then .dropArpUnsupported else .dropArpTooShort

/-- Phase `DecodeArp` (R154): reads `ETH.payload`. -/
def phaseDecodeArp (s : State) : Out :=
  match regValue .eth s.eth with
  | .error f => .fault f
  | .ok f =>
      match decodeArp f.payload with
      | .ok m => .next (setPhase .respond (setArp m s))
      | .raise e => .next (endCycle (arpDropOutcome e) s)

/-- Phase `Respond` (R155): reads `ARP`, `LOCAL_HA`, `LOCAL_PA`. -/
def phaseRespond (s : State) : Out :=
  match regValue .arp s.arp with
  | .error f => .fault f
  | .ok m =>
      match handle m s.localHA s.localPA with
      | .ok r => .next (setPhase .encodeAndWrite (setRpl r s))
      | .raise _ => .next (endCycle .dropNoReply s)

/-- The last part of `EncodeAndWrite` (R156): wait for the device's answer, then end the cycle. -/
def finishWrite (s : State) : Out :=
  match awaitWrite s with
  | (none, s1) => .next s1
  | (some a, s1) => .next (endCycle (writeOutcome a) s1)

/-- `writeFrame(MemRead(TXBUF, 0, 42))` (R156). -/
def sendTx (s : State) : Out :=
  match memRead .txbuf 0 Config.txFrameLen s with
  | .error f => .fault f
  | .ok t =>
      match issueWrite t s with
      | .error f => .fault f
      | .ok s1 => finishWrite s1

/-- Phase `EncodeAndWrite` (R156): reads `ARP.sha`, `RPL`, `LOCAL_HA`. The reply's write, issued in an earlier
step and not answered yet, is waited for, not issued again (R162, R224). DESIGN CHOICE (log entry 9): a
transaction invoked on its own (R88, R190) can be in flight here, which R156 does not speak of; another write
or a read is the fault `transactionInFlight` (safe), and a write of the reply's very bytes is taken for the
reply's (unsafe). -/
def phaseEncodeAndWrite (s : State) : Out :=
  match regValue .arp s.arp, regValue .rpl s.rpl with
  | .error f, _ => .fault f
  | .ok _, .error f => .fault f
  | .ok m, .ok r => sendTx (loadTx (encodeEthernet (wrapReply m r s.localHA)) s)

/-- One step of the agent as one phase (R150). In `Halted` nothing happens (R157). -/
def phaseStep (s : State) : Out :=
  match s.phase with
  | .readFrame => phaseReadFrame s
  | .decodeEthernet => phaseDecodeEthernet s
  | .classify => phaseClassify s
  | .decodeArp => phaseDecodeArp s
  | .respond => phaseRespond s
  | .encodeAndWrite => phaseEncodeAndWrite s
  | .halted => .next s

/-- Whether the phases pause: a cycle has ended (`ReadFrame`, `Halted`) or a transaction is in flight. -/
def atPause (s : State) : Bool := s.phase == .readFrame || s.phase == .halted || s.port != .idle

/-- Phases one after another, at most `k`, up to the next pause: the composition of the phases that R158
speaks of. A whole cycle has at most six. -/
def runPhases : Nat → State → Out
  | 0, s => .next s
  | k + 1, s => andThen (phaseStep s) fun t => if atPause t then .next t else runPhases k t

/-- `cycle(LA, LP, rx, wr)` (R158). -/
def cycle (la : HA) (lp : PA) (rx : ReadAnswer) (wr : WriteAnswer) : CycleResult :=
  match rx with
  | .failure => ⟨none, .readFailed, true⟩
  | .frame b =>
      match decodeEthernet b with
      | .raise _ => ⟨none, .dropEthTooShort, false⟩
      | .ok f =>
          if f.etype ≠ Config.ethertypeArp then ⟨none, .dropEthertype, false⟩
          else
            match decodeArp f.payload with
            | .raise .unsupported => ⟨none, .dropArpUnsupported, false⟩
            | .raise _ => ⟨none, .dropArpTooShort, false⟩
            | .ok m =>
                match handle m la lp with
                | .raise _ => ⟨none, .dropNoReply, false⟩
                | .ok r => ⟨some (encodeEthernet (wrapReply m r la)), writeOutcome wr, false⟩

/-- `cycle` on its own (R158): a function of its operands, which gives its three outputs. The dispatcher's
own cycle is `step`. -/
def execCycle (la : HA) (lp : PA) (rx : ReadAnswer) (wr : WriteAnswer) (s : State) : Out :=
  returnValue (.ok (.cycleResult (cycle la lp rx wr))) s

end Sys2Proof.Machine
end

