-- ==== Sys2Proof/Syntax.lean ====
section
/-! DEFINITION. The instruction set: the eight frame classes (30_encoding.md R84) and the sixteen named
operations (R88), one constructor per row of spec/opcode_table.json, in the table's order.

A frame class carries the whole frame it stands for, cut into fields (R80 to R82): the received frame
is the instruction word (92_eei_decisions.md D1). A named operation carries its operands; it is invoked
structurally and has no encoding (R88, D21). -/

namespace Sys2Proof

inductive Instr where
  /-- `FRAME_RUNT`: fewer than 14 bytes. -/
  | frameRunt (bytes : List Byte)
  /-- `ARP_REQUEST`: a supported ARP message with `oper` 1; `tail` is what follows byte 41 (R136). -/
  | arpRequest (dst src sha : HA) (spa : PA) (tha : HA) (tpa : PA) (tail : List Byte)
  /-- `ARP_REPLY`: a supported ARP message with `oper` 2. -/
  | arpReply (dst src sha : HA) (spa : PA) (tha : HA) (tpa : PA) (tail : List Byte)
  /-- `ARP_OTHER_OP`: a supported ARP message whose `oper` is neither 1 nor 2. -/
  | arpOtherOp (dst src : HA) (oper : U16) (sha : HA) (spa : PA) (tha : HA) (tpa : PA) (tail : List Byte)
  /-- `ARP_SHORT_BODY`: a supported fixed header with fewer than 20 bytes (`rest`) after it. -/
  | arpShortBody (dst src : HA) (oper : U16) (rest : List Byte)
  /-- `ARP_UNSUPPORTED`: ethertype ARP, a whole fixed header that fails the validity gate. -/
  | arpUnsupported (dst src : HA) (payload : List Byte)
  /-- `ARP_SHORT_HDR`: ethertype ARP with fewer than 8 payload bytes. -/
  | arpShortHdr (dst src : HA) (payload : List Byte)
  /-- `FRAME_OTHER`: any ethertype but ARP. -/
  | frameOther (dst src : HA) (etype : U16) (payload : List Byte)
  /-- `NTOH16` (R110) -/
  | ntoh16 (b : Wire2)
  /-- `NTOH32` (R111) -/
  | ntoh32 (b : Wire4)
  /-- `HTON16` (R112) -/
  | hton16 (v : U16)
  /-- `HTON32` (R113) -/
  | hton32 (v : U32)
  /-- `BSWAP16` (R114) -/
  | bswap16 (w : U16)
  /-- `BSWAP32` (R114) -/
  | bswap32 (w : U32)
  /-- `decodeEthernet` (R120) -/
  | decodeEthernet (b : List Byte)
  /-- `encodeEthernet` (R121) -/
  | encodeEthernet (f : EthernetFrame)
  /-- `decodeArp` (R130) -/
  | decodeArp (p : List Byte)
  /-- `encodeArp` (R131) -/
  | encodeArp (m : ArpMessage)
  /-- `validArp` (R132) -/
  | validArp (m : ArpMessage)
  /-- `handle` (R140) -/
  | handle (request : ArpMessage) (la : HA) (lp : PA)
  /-- `wrapReply` (R142) -/
  | wrapReply (request reply : ArpMessage) (la : HA)
  /-- `readFrame` (R161) -/
  | readFrame (maxLength : Nat)
  /-- `writeFrame` (R162) -/
  | writeFrame (bytes : List Byte)
  /-- `cycle` (R158) -/
  | cycle (la : HA) (lp : PA) (rx : ReadAnswer) (wr : WriteAnswer)
deriving DecidableEq, Repr

end Sys2Proof
end

