-- ==== Sys2Proof/Decode.lean ====
section
/-! DEFINITION. The decoder from raw frames to instructions (30_encoding.md R84), the encoder back, the
opcode table's mask rows (spec/opcode_table.json, R82, R84), and `decodeTableWord`.

The decoder is R84's table, its conditions tested in the order given. The opcode table says the same as
match-and-mask rows over the first 22 bytes; it stands here as data, and that both give the same class
for every frame is a claim of R84, stated as an obligation. -/

namespace Sys2Proof

open Sys2Proof.Machine (byteAt haAt u16At u32At fromOffset haBytes u16Bytes u32Bytes)

/-- The eight frame classes (R84). -/
inductive FrameClass where
  | frameRunt
  | frameOther
  | arpShortHdr
  | arpUnsupported
  | arpShortBody
  | arpRequest
  | arpReply
  | arpOtherOp
deriving DecidableEq, Repr

/-- The place of a class in R84's table (`class_number_R84` of the opcode table). -/
def classNumber : FrameClass → Nat
  | .frameRunt => 1
  | .frameOther => 2
  | .arpShortHdr => 3
  | .arpUnsupported => 4
  | .arpShortBody => 5
  | .arpRequest => 6
  | .arpReply => 7
  | .arpOtherOp => 8

/-- The class an instruction stands for; the named operations stand for none (R88). -/
def classOf : Instr → Option FrameClass
  | .frameRunt _ => some .frameRunt
  | .arpRequest _ _ _ _ _ _ _ => some .arpRequest
  | .arpReply _ _ _ _ _ _ _ => some .arpReply
  | .arpOtherOp _ _ _ _ _ _ _ _ => some .arpOtherOp
  | .arpShortBody _ _ _ _ => some .arpShortBody
  | .arpUnsupported _ _ _ => some .arpUnsupported
  | .arpShortHdr _ _ _ => some .arpShortHdr
  | .frameOther _ _ _ _ => some .frameOther
  | .ntoh16 _ => none
  | .ntoh32 _ => none
  | .hton16 _ => none
  | .hton32 _ => none
  | .bswap16 _ => none
  | .bswap32 _ => none
  | .decodeEthernet _ => none
  | .encodeEthernet _ => none
  | .decodeArp _ => none
  | .encodeArp _ => none
  | .validArp _ => none
  | .handle _ _ _ => none
  | .wrapReply _ _ _ => none
  | .readFrame _ => none
  | .writeFrame _ => none
  | .cycle _ _ _ _ => none

/-- Why the decoder rejects a byte sequence. -/
inductive DecodeError where
  /-- longer than the receive buffer, so no frame a read can return (R86, R161) -/
  | overCapacity (len : Nat)
deriving DecidableEq, Repr

/-- What the decoder answers. -/
inductive Decoded where
  | instr (i : Instr)
  | rejected (e : DecodeError)
deriving DecidableEq, Repr

/-- Bytes 14 to 19 of an ARP frame the gate lets pass: `00 01 08 00 06 04` (R84). -/
def gateBytes : List Byte := [0x00#8, 0x01#8, 0x08#8, 0x00#8, 0x06#8, 0x04#8]

/-- The instruction in a frame of 42 or more bytes whose bytes 12 to 19 are those of a supported ARP
message: classes 6, 7 and 8 of R84, told apart by `oper`. -/
def decodeMessage (b : List Byte) : Instr :=
  let dst := haAt b 0
  let src := haAt b 6
  let oper := u16At b 20
  let sha := haAt b 22
  let spa := u32At b 28
  let tha := haAt b 32
  let tpa := u32At b 38
  let tail := fromOffset b 42
  if oper = Config.opRequest then .arpRequest dst src sha spa tha tpa tail
  else if oper = Config.opReply then .arpReply dst src sha spa tha tpa tail
  else .arpOtherOp dst src oper sha spa tha tpa tail

/-- The instruction a frame is: R84's conditions in R84's order. -/
def decodeFrame (b : List Byte) : Instr :=
  if b.length < 14 then .frameRunt b
  else if u16At b 12 ≠ Config.ethertypeArp then .frameOther (haAt b 0) (haAt b 6) (u16At b 12) (fromOffset b 14)
  else if b.length < 22 then .arpShortHdr (haAt b 0) (haAt b 6) (fromOffset b 14)
  else if (b.drop 14).take 6 ≠ gateBytes then .arpUnsupported (haAt b 0) (haAt b 6) (fromOffset b 14)
  else if b.length < 42 then .arpShortBody (haAt b 0) (haAt b 6) (u16At b 20) (fromOffset b 22)
  else decodeMessage b

/-- The decoder, total on every byte sequence: a frame of at most `MAXLEN` bytes is in exactly one class
(R84); a longer sequence is no frame the core can hold (R53, log entry 10). -/
def decode (b : List Byte) : Decoded :=
  if Config.fitsBuffer b.length then .instr (decodeFrame b) else .rejected (.overCapacity b.length)

/-! The encoder, from the layouts of R80 to R82. -/

/-- An Ethernet header (R80) before a payload. -/
def frameBytes (dst src : HA) (etype : U16) (payload : List Byte) : List Byte :=
  haBytes dst ++ haBytes src ++ u16Bytes etype ++ payload

/-- The fixed header of a supported ARP message (R81). -/
def arpFixedBytes (oper : U16) : List Byte :=
  u16Bytes Config.htypeEthernet ++ u16Bytes Config.ptypeIpv4 ++ [Config.hlenEthernet] ++ [Config.plenIpv4] ++
    u16Bytes oper

/-- A supported ARP message of 28 bytes (R81). -/
def arpBytes (oper : U16) (sha : HA) (spa : PA) (tha : HA) (tpa : PA) : List Byte :=
  arpFixedBytes oper ++ haBytes sha ++ u32Bytes spa ++ haBytes tha ++ u32Bytes tpa

/-- The frame of classes 6, 7 and 8 (R82): the message in an Ethernet frame, and what follows it. -/
def arpFrameBytes (dst src : HA) (oper : U16) (sha : HA) (spa : PA) (tha : HA) (tpa : PA) (tail : List Byte) :
    List Byte :=
  frameBytes dst src Config.ethertypeArp (arpBytes oper sha spa tha tpa ++ tail)

/-- The frame of class 5: an ARP message whose addresses are cut short. -/
def arpShortBytes (dst src : HA) (oper : U16) (rest : List Byte) : List Byte :=
  frameBytes dst src Config.ethertypeArp (arpFixedBytes oper ++ rest)

/-- The frame an instruction stands for; a named operation has no encoding (R88, D21). -/
def encode : Instr → Option (List Byte)
  | .frameRunt bytes => some bytes
  | .arpRequest dst src sha spa tha tpa tail => some (arpFrameBytes dst src Config.opRequest sha spa tha tpa tail)
  | .arpReply dst src sha spa tha tpa tail => some (arpFrameBytes dst src Config.opReply sha spa tha tpa tail)
  | .arpOtherOp dst src oper sha spa tha tpa tail => some (arpFrameBytes dst src oper sha spa tha tpa tail)
  | .arpShortBody dst src oper rest => some (arpShortBytes dst src oper rest)
  | .arpUnsupported dst src payload => some (frameBytes dst src Config.ethertypeArp payload)
  | .arpShortHdr dst src payload => some (frameBytes dst src Config.ethertypeArp payload)
  | .frameOther dst src etype payload => some (frameBytes dst src etype payload)
  | .ntoh16 _ => none
  | .ntoh32 _ => none
  | .hton16 _ => none
  | .hton32 _ => none
  | .bswap16 _ => none
  | .bswap32 _ => none
  | .decodeEthernet _ => none
  | .encodeEthernet _ => none
  | .decodeArp _ => none
  | .encodeArp _ => none
  | .validArp _ => none
  | .handle _ _ _ => none
  | .wrapReply _ _ _ => none
  | .readFrame _ => none
  | .writeFrame _ => none
  | .cycle _ _ _ _ => none

/-! The opcode table's mask rows. -/

/-- `W22`: the frame's first 22 bytes as one 176-bit word, byte 0 in bits 175:168, byte 21 in bits 7:0;
bytes the frame does not have are zero (R82, R84). -/
def w22 (b : List Byte) : BitVec 176 :=
  byteAt b 0 ++ byteAt b 1 ++ byteAt b 2 ++ byteAt b 3 ++ byteAt b 4 ++ byteAt b 5 ++ byteAt b 6 ++ byteAt b 7 ++
  byteAt b 8 ++ byteAt b 9 ++ byteAt b 10 ++ byteAt b 11 ++ byteAt b 12 ++ byteAt b 13 ++ byteAt b 14 ++ byteAt b 15 ++
  byteAt b 16 ++ byteAt b 17 ++ byteAt b 18 ++ byteAt b 19 ++ byteAt b 20 ++ byteAt b 21

/-- One mask row of the opcode table. `maxLen` is `none` where the table says `MAXLEN`. -/
structure OpcodeRow where
  cls : FrameClass
  pattern : BitVec 176
  mask : BitVec 176
  minLen : Nat
  maxLen : Option Nat
deriving DecidableEq, Repr

/-- Whether a row applies to a frame: `min_len <= n <= max_len` and `(W22 & mask) = match` (R84). -/
def rowApplies (r : OpcodeRow) (b : List Byte) : Bool :=
  decide (r.minLen ≤ b.length) &&
    (match r.maxLen with
      | some n => decide (b.length ≤ n)
      | none => Config.fitsBuffer b.length) &&
    decide (w22 b &&& r.mask = r.pattern)

/-- The eight frame-class rows of spec/opcode_table.json, in its order, most specific first. -/
def opcodeRows : List OpcodeRow := [
  ⟨.frameRunt, 0x00000000000000000000000000000000000000000000#176, 0x00000000000000000000000000000000000000000000#176, 0, some 13⟩,
  ⟨.arpRequest, 0x00000000000000000000000008060001080006040001#176, 0x000000000000000000000000ffffffffffffffffffff#176, 42, none⟩,
  ⟨.arpReply, 0x00000000000000000000000008060001080006040002#176, 0x000000000000000000000000ffffffffffffffffffff#176, 42, none⟩,
  ⟨.arpOtherOp, 0x00000000000000000000000008060001080006040000#176, 0x000000000000000000000000ffffffffffffffff0000#176, 42, none⟩,
  ⟨.arpShortBody, 0x00000000000000000000000008060001080006040000#176, 0x000000000000000000000000ffffffffffffffff0000#176, 22, some 41⟩,
  ⟨.arpUnsupported, 0x00000000000000000000000008060000000000000000#176, 0x000000000000000000000000ffff0000000000000000#176, 22, none⟩,
  ⟨.arpShortHdr, 0x00000000000000000000000008060000000000000000#176, 0x000000000000000000000000ffff0000000000000000#176, 14, some 21⟩,
  ⟨.frameOther, 0x00000000000000000000000000000000000000000000#176, 0x00000000000000000000000000000000000000000000#176, 14, none⟩]

/-- The class the opcode table gives a frame: "the first row that applies is taken" (R84). -/
def tableClass (b : List Byte) : Option FrameClass := (opcodeRows.find? fun r => rowApplies r b).map OpcodeRow.cls

/-! The table's word. -/

/-- The `k` bytes of a word of `8 * k` bits numbered as R82 numbers `W22`: byte 0 is the most
significant. -/
def wordBytes (k w : Nat) : List Byte := (List.range k).map fun i => BitVec.ofNat 8 (w >>> (8 * (k - 1 - i)))

/-- The frame whose first `nbits` bits are `w`. `W22` (176 bits) is cut off inside an ARP message, so the
20 address bytes it leaves out follow as zeros; any other width is the whole frame (log entry 11). -/
def tableFrame (nbits w : Nat) : List Byte :=
  wordBytes (nbits / 8) w ++ (if nbits = 176 then List.replicate 20 0#8 else [])

/-- The instruction the decoder reads from the frame whose first `nbits` bits are `w`. A row of no bits is
a named operation, which has no encoding (R88, D21). -/
def decodeTableWord (nbits w : Nat) : Option Instr :=
  if nbits = 0 then none
  else match decode (tableFrame nbits w) with
    | .instr i => some i
    | .rejected _ => none

end Sys2Proof
end

