-- ==== Sys2Proof/Machine/FrameClasses.lean ====
section
/-! DEFINITION. The meanings of the eight frame classes (30_encoding.md R84): with the frame in hand, the
dispatcher passes the phases R84 gives the class and drops the frame or writes the reply. Each meaning
is the composition of its class's phases, as the phase columns of 95_test_vectors.md list them.

A frame is taken only while the core is not `Halted` and no transaction is in flight (R62, R157). -/

namespace Sys2Proof.Machine

/-- A frame in hand, before its phases. -/
def withFrame (s : State) (k : State → Out) : Out := unlessHalted s fun s => whenPortIdle s k

/-- DecodeEthernet, Classify. -/
def throughClassify (b : List Byte) (s : State) : Out := andThen (decodeEthernetOn b s) phaseClassify

/-- DecodeEthernet, Classify, DecodeArp. -/
def throughDecodeArp (b : List Byte) (s : State) : Out := andThen (throughClassify b s) phaseDecodeArp

/-- DecodeEthernet, Classify, DecodeArp, Respond. -/
def throughRespond (b : List Byte) (s : State) : Out := andThen (throughDecodeArp b s) phaseRespond

/-- `FRAME_RUNT`: dropped in DecodeEthernet, `DROP_ETH_TOO_SHORT` (R84 class 1, R152). -/
def execFrameRunt (bytes : List Byte) (s : State) : Out := withFrame s (decodeEthernetOn bytes)

/-- `FRAME_OTHER`: dropped in Classify, `DROP_ETHERTYPE` (R84 class 2, R153). -/
def execFrameOther (dst src : HA) (etype : U16) (payload : List Byte) (s : State) : Out :=
  withFrame s (throughClassify (frameBytes dst src etype payload))

/-- `ARP_SHORT_HDR`: dropped in DecodeArp, `DROP_ARP_TOO_SHORT` (R84 class 3, R154, R130 step 1). -/
def execArpShortHdr (dst src : HA) (payload : List Byte) (s : State) : Out :=
  withFrame s (throughDecodeArp (frameBytes dst src Config.ethertypeArp payload))

/-- `ARP_UNSUPPORTED`: dropped in DecodeArp, `DROP_ARP_UNSUPPORTED` (R84 class 4, R154, R130 step 3). -/
def execArpUnsupported (dst src : HA) (payload : List Byte) (s : State) : Out :=
  withFrame s (throughDecodeArp (frameBytes dst src Config.ethertypeArp payload))

/-- `ARP_SHORT_BODY`: dropped in DecodeArp, `DROP_ARP_TOO_SHORT` (R84 class 5, R154, R130 step 4). -/
def execArpShortBody (dst src : HA) (oper : U16) (rest : List Byte) (s : State) : Out :=
  withFrame s (throughDecodeArp (arpShortBytes dst src oper rest))

/-- `ARP_REPLY`: dropped in Respond, `DROP_NO_REPLY` (R84 class 7, R155, R140). -/
def execArpReply (dst src sha : HA) (spa : PA) (tha : HA) (tpa : PA) (tail : List Byte) (s : State) : Out :=
  withFrame s (throughRespond (arpFrameBytes dst src Config.opReply sha spa tha tpa tail))

/-- `ARP_OTHER_OP`: dropped in Respond, `DROP_NO_REPLY` (R84 class 8, R155, R140). -/
def execArpOtherOp (dst src : HA) (oper : U16) (sha : HA) (spa : PA) (tha : HA) (tpa : PA) (tail : List Byte)
    (s : State) : Out :=
  withFrame s (throughRespond (arpFrameBytes dst src oper sha spa tha tpa tail))

/-- `ARP_REQUEST`: the reply is built and written, `REPLIED` or `WRITE_FAILED` (R84 class 6, R155, R156). -/
def execArpRequest (dst src sha : HA) (spa : PA) (tha : HA) (tpa : PA) (tail : List Byte) (s : State) : Out :=
  withFrame s fun s =>
    andThen (throughRespond (arpFrameBytes dst src Config.opRequest sha spa tha tpa tail) s) phaseEncodeAndWrite

end Sys2Proof.Machine
end

