-- ==== Sys2Proof/Machine/Dispatch.lean ====
section
/-! DEFINITION. One arm per constructor of Instr, each a direct call of the instruction's meaning. -/

namespace Sys2Proof.Machine

def exec (i : Instr) (s : State) : Host.Outcome State Fault Refusal :=
  match i with
  | .frameRunt bytes => Sys2Proof.Machine.execFrameRunt bytes s
  | .arpRequest dst src sha spa tha tpa tail => Sys2Proof.Machine.execArpRequest dst src sha spa tha tpa tail s
  | .arpReply dst src sha spa tha tpa tail => Sys2Proof.Machine.execArpReply dst src sha spa tha tpa tail s
  | .arpOtherOp dst src oper sha spa tha tpa tail => Sys2Proof.Machine.execArpOtherOp dst src oper sha spa tha tpa tail s
  | .arpShortBody dst src oper rest => Sys2Proof.Machine.execArpShortBody dst src oper rest s
  | .arpUnsupported dst src payload => Sys2Proof.Machine.execArpUnsupported dst src payload s
  | .arpShortHdr dst src payload => Sys2Proof.Machine.execArpShortHdr dst src payload s
  | .frameOther dst src etype payload => Sys2Proof.Machine.execFrameOther dst src etype payload s
  | .ntoh16 b => Sys2Proof.Machine.execNtoh16 b s
  | .ntoh32 b => Sys2Proof.Machine.execNtoh32 b s
  | .hton16 v => Sys2Proof.Machine.execHton16 v s
  | .hton32 v => Sys2Proof.Machine.execHton32 v s
  | .bswap16 w => Sys2Proof.Machine.execBswap16 w s
  | .bswap32 w => Sys2Proof.Machine.execBswap32 w s
  | .decodeEthernet b => Sys2Proof.Machine.execDecodeEthernet b s
  | .encodeEthernet f => Sys2Proof.Machine.execEncodeEthernet f s
  | .decodeArp p => Sys2Proof.Machine.execDecodeArp p s
  | .encodeArp m => Sys2Proof.Machine.execEncodeArp m s
  | .validArp m => Sys2Proof.Machine.execValidArp m s
  | .handle request la lp => Sys2Proof.Machine.execHandle request la lp s
  | .wrapReply request reply la => Sys2Proof.Machine.execWrapReply request reply la s
  | .readFrame maxLength => Sys2Proof.Machine.execReadFrame maxLength s
  | .writeFrame bytes => Sys2Proof.Machine.execWriteFrame bytes s
  | .cycle la lp rx wr => Sys2Proof.Machine.execCycle la lp rx wr s

end Sys2Proof.Machine
end

