-- ==== Sys2Proof/Machine/Fetch.lean ====
section
/-! DEFINITION. Fetching: the instruction word is the frame in hand, `RXBUF[0 ..+ RXLEN]` (D1, R152), and
the device's next answer is where the next one comes from (R89). -/

namespace Sys2Proof.Machine

/-- The instruction in the receive buffer, or the fault of reading it (R51) or of a frame no receive
buffer could hold (R53). -/
def fetchHeld (s : State) : Except Fault Instr :=
  match heldFrame s with
  | .error f => .error f
  | .ok b =>
      match decode b with
      | .instr i => .ok i
      | .rejected (.overCapacity len) => .error (.frameOverCapacity len)

/-- Run the instruction in the receive buffer with a given meaning of instructions. -/
def runHeld (run : Instr → State → Out) (s : State) : Out :=
  match fetchHeld s with
  | .error f => .fault f
  | .ok i => run i s

/-- The core waits for its next frame, and the device's next answer is this one (R89). DESIGN CHOICE (log entry
14): the spec has no operation by which the host places a frame. From whatever phase, `PHASE` becomes
`ReadFrame` and the port idle; the working registers are left as they stand, so that after a placement in the
middle of a cycle they hold old values in `ReadFrame`, which R28 does not allow, until a phase overwrites them
or the cycle ends. No phase reads one before it is overwritten. Unsafe: see the entry. -/
def presentFrame (b : List Byte) (s : State) : State :=
  { s with phase := .readFrame, port := .idle, rxAnswers := .frame b :: s.rxAnswers }

end Sys2Proof.Machine
end

