-- ==== Sys2Proof/Machine/Step.lean ====
section
/-! DEFINITION. The step: one cycle of the dispatcher from `ReadFrame`, as R158 allows ("A model may take
this function as the step of the agent and prove it equal to the composition of the phases"), stopping
early where a transaction is not answered (R195, R224). A cycle found under way in a later phase goes on
phase by phase (R150). See log entry 1. -/

namespace Sys2Proof.Machine

/-- After the read: with a frame in hand its instruction runs; a read not answered, or failed, ends the
step. -/
def afterRead (s : State) : Host.Outcome State Fault Refusal :=
  match s.phase with
  | .decodeEthernet => runHeld exec s
  | .readFrame => .next s
  | .classify => .next s
  | .decodeArp => .next s
  | .respond => .next s
  | .encodeAndWrite => .next s
  | .halted => .next s

/-- One step of the core. -/
def step (s : State) : Host.Outcome State Fault Refusal :=
  match s.phase with
  | .readFrame => andThen (phaseReadFrame s) afterRead
  | .decodeEthernet => runHeld exec s
  | .classify => phaseStep s
  | .decodeArp => phaseStep s
  | .respond => phaseStep s
  | .encodeAndWrite => phaseStep s
  | .halted => phaseStep s

/-- `s` with the frame of the table's word as the device's next answer, the core waiting in `ReadFrame` with
no transaction in flight: the next step reads it and runs it (log entry 14). -/
def State.withFetchWord (s : State) (nbits w : Nat) : State :=
  if nbits = 0 then s else presentFrame (tableFrame nbits w) s

end Sys2Proof.Machine
end

