-- ==== Sys2Proof/Machine/Run.lean ====
section
/-! DEFINITION. A run of the core (44_frame_dispatcher.md R164): its steps from a reset state, with the device
answering as it goes on, and what the environment observes of it, cycle by cycle. -/

namespace Sys2Proof.Machine

/-- What the device does in a run: the answers to reads and to writes that it gives just before step `n`, for every
`n` (R161, R162, U7 to U11). A device that goes on answering for ever is such a function, and so is one
that stops (log entries 2 and 23). -/
abbrev Device := Nat → List ReadAnswer × List WriteAnswer

/-- Where a run starts: the reset state with the local identity the host chose (R210, R212); the device has answered
nothing yet. -/
def resetWith (la : HA) (lp : PA) : State := hostReset la lp [] [] State.reset

/-- The state after `n` moves from `s`, the device's answers delivered as they come. -/
def runBy (next : State → Out) (dev : Device) : Nat → State → Out
  | 0, s => .next s
  | n + 1, s => andThen (runBy next dev n s) fun t => next (deliver (dev n).1 (dev n).2 t)

/-- A run by cycles (R164: "the sequence of its cycles from reset"): the state after `n` steps. The run itself is the
sequence of these states over all `n`. -/
def run (dev : Device) (n : Nat) (s : State) : Out := runBy step dev n s

/-- The same run by phases, one step of the agent each (R150): its states are all those at which the environment may
stop or reset the core, "in any phase" (R211, R215, D16). -/
def phaseRun (dev : Device) (n : Nat) (s : State) : Out := runBy phaseStep dev n s

/-- What the environment observes of one cycle (R164): the frame read or the read failure; the frame written, if
any, with the device's answer; the outcome. -/
structure CycleRecord where
  read : ReadAnswer
  frame : Option (List Byte)
  answer : Option WriteAnswer
  outcome : OutcomeCode
deriving DecidableEq, Repr

/-- What the environment has observed: the cycles that have ended, and the parts of the one under way. -/
structure Observation where
  cycles : List CycleRecord
  read : Option ReadAnswer
  frame : Option (List Byte)
  answer : Option WriteAnswer
deriving DecidableEq, Repr

/-- Before the first event. -/
def nothingSeen : Observation := ⟨[], none, none, none⟩

/-- The observation after one more event. A read opens a cycle and the outcome ends it, "exactly one outcome, at its
last transition" (R150). DESIGN CHOICE (log entry 15), unsafe: the spec does not say whether the record shows a reset,
and there is no event for one; so after a reset in mid-cycle (R211) `cycleUnderWay` shows the abandoned cycle's frame
and write until the next read is answered. -/
def see (o : Observation) (e : Event) : Observation :=
  match e with
  | .readIssued _ => o
  | .readAnswered a => { o with read := some a, frame := none, answer := none }
  | .writeIssued b => { o with frame := some b }
  | .writeAnswered a => { o with answer := some a }
  | .outcome c =>
      match o.read with
      | some a => ⟨o.cycles ++ [⟨a, o.frame, o.answer, c⟩], none, none, none⟩
      | none => ⟨o.cycles, none, none, none⟩

/-- What a trace shows. -/
def observe (t : List Event) : Observation := t.foldl see nothingSeen

/-- The observable trace of R164: the cycles that have ended, in their order. -/
def cyclesSeen (s : State) : List CycleRecord := (observe s.trace).cycles

/-- What the environment observes of a cycle whose read is answered `rx` and whose write, if any, `wr`, by the
big-step form (R158). -/
def cycleRecord (la : HA) (lp : PA) (rx : ReadAnswer) (wr : WriteAnswer) : CycleRecord :=
  ⟨rx, (cycle la lp rx wr).tx, (cycle la lp rx wr).tx.map fun _ => wr, (cycle la lp rx wr).outcome⟩

/-- A run that ends of itself: it reaches `Halted` (R164, first way). -/
def RunHalts (dev : Device) (s : State) : Prop := ∃ n t, run dev n s = .next t ∧ t.phase = .halted

/-- A run that the environment ends (R164, second way; R215, D16): the core is stopped in state `t`, in whatever phase
that is. It is no transition of the core: the cycle under way is abandoned where it stands, with no outcome (R211). -/
def RunStops (dev : Device) (s t : State) : Prop := ∃ n, phaseRun dev n s = .next t

/-- What the environment may have seen of a run when it stops it "at any moment": "any prefix of a run is a possible
complete history" (R215), also one that ends within a phase. -/
def History (dev : Device) (s : State) (h : List Event) : Prop := ∃ t, RunStops dev s t ∧ h <+: t.trace

/-- What is seen of the cycle under way: the read's answer, the frame written, the answer to it. After a reset in
mid-cycle it is the abandoned cycle's, until the next read is answered (log entry 15). -/
def cycleUnderWay (s : State) : Option ReadAnswer × Option (List Byte) × Option WriteAnswer :=
  ((observe s.trace).read, (observe s.trace).frame, (observe s.trace).answer)

/-- The write in flight on a port. -/
def writeInFlight : Port → Option (List Byte)
  | .idle => none
  | .reading => none
  | .writing b => some b

/-- A run that is an infinite sequence of cycles (R164): however many, so many end. -/
def RunGoesOn (dev : Device) (s : State) : Prop := ∀ k, ∃ n t, run dev n s = .next t ∧ k ≤ (cyclesSeen t).length

/-- A run that waits for ever in a read or a write that does not return (R164, R224): from some step on nothing is
seen any more, and a transaction is in flight. -/
def RunWaits (dev : Device) (s : State) : Prop :=
  ∃ n t, run dev n s = .next t ∧
    (t.phase = .readFrame ∧ t.port = .reading ∨ t.phase = .encodeAndWrite ∧ ∃ b, t.port = .writing b) ∧
    ∀ m, n ≤ m → ∃ u, run dev m s = .next u ∧ u.phase = t.phase ∧ u.port = t.port ∧ u.trace = t.trace

end Sys2Proof.Machine
end

