-- ==== Sys2Proof/Safety.lean ====
section
/-! DEFINITION. What counts as a safe state and a lawful device, in the terms the statements use. -/

namespace Sys2Proof.Machine

/-- No working register holds a value (R28). -/
def workingClear (s : State) : Bool :=
  s.rxbuf == [] && s.rxlen == none && s.eth == none && s.arp == none && s.rpl == none && s.txbuf == [] &&
    s.txlen == none

/-- A buffer holds values exactly at addresses 0 to `n - 1` (R23, R27). -/
def holdsExactly (m : Memory) (n : Nat) : Bool := m.map Prod.fst == List.range n

/-- A frame of at most `MAXLEN` bytes is in hand: `RXBUF[0 ..+ RXLEN]` holds a value and nothing else of
`RXBUF` does (R23, R53). -/
def frameInHand (s : State) : Bool :=
  match s.rxlen with
  | some n => holdsExactly s.rxbuf n && Config.fitsBuffer n
  | none => false

/-- `ETH` holds a value and the invariant of R24: payload length is frame length less 14. -/
def ethValid (s : State) : Bool :=
  match s.eth, s.rxlen with
  | some f, some n => decide (f.payload.length + 14 = n)
  | _, _ => false

/-- `ARP` holds a value, and it is valid (R25). -/
def arpHeldValid (s : State) : Bool :=
  match s.arp with
  | some m => validArp m
  | none => false

/-- `ARP` and `RPL` hold a valid request and the reply to it (R26, R140). -/
def replyHeld (s : State) : Bool :=
  match s.arp, s.rpl with
  | some m, some r => decide (handle m s.localHA s.localPA = .ok r)
  | _, _ => false

/-- The bytes are those of the reply held, wrapped and encoded (R156). -/
def replyWritten (b : List Byte) (s : State) : Bool :=
  match s.arp, s.rpl with
  | some m, some r => decide (encodeEthernet (wrapReply m r s.localHA) = b)
  | _, _ => false

/-- `TXBUF` and `TXLEN` hold no value (R28). -/
def txClear (s : State) : Bool := s.txbuf == [] && s.txlen == none

/-- `TXBUF` holds a value at 0 to 41 and `TXLEN` is 42 (R26). -/
def txLoaded (s : State) : Bool := holdsExactly s.txbuf Config.txFrameLen && s.txlen == some Config.txFrameLen

/-- What holds of the registers and the ports in each phase (R22 to R28, R62, R156). -/
def phaseInv (s : State) : Bool :=
  match s.phase with
  | .readFrame => workingClear s && (s.port == .idle || s.port == .reading)
  | .decodeEthernet => frameInHand s && s.eth == none && s.arp == none && s.rpl == none && txClear s && s.port == .idle
  | .classify => frameInHand s && ethValid s && s.arp == none && s.rpl == none && txClear s && s.port == .idle
  | .decodeArp => frameInHand s && ethValid s && s.arp == none && s.rpl == none && txClear s && s.port == .idle
  | .respond => frameInHand s && ethValid s && arpHeldValid s && s.rpl == none && txClear s && s.port == .idle
  | .encodeAndWrite =>
      frameInHand s && ethValid s && replyHeld s &&
        match s.port with
        | .idle => txClear s
        | .reading => false
        | .writing b => txLoaded s && decide (bufLoad s.txbuf 0 Config.txFrameLen = some b) && replyWritten b s
  | .halted => workingClear s && s.port == .idle

/-- The invariant of the core: both buffers are in canonical form, and each register holds a value in just
the phases the spec says it does. -/
abbrev Inv (s : State) : Prop := Memory.wf s.rxbuf = true ∧ Memory.wf s.txbuf = true ∧ phaseInv s = true

/-- The device keeps R161: no answer to a read is longer than `MAXLEN`. A premise about the environment. -/
abbrev DeviceLawful (s : State) : Prop := ∀ a ∈ s.rxAnswers, answerLength a ≤ Config.maxLen

/-- What a drop leaves, written out (R183): nothing written to the ports, the outcome emitted, every working
register without value, `PHASE` at `ReadFrame`, all else as it was. -/
def dropped (c : OutcomeCode) (s : State) : State :=
  { s with phase := .readFrame, rxbuf := [], rxlen := none, eth := none, arp := none, rpl := none, txbuf := [],
           txlen := none, trace := s.trace ++ [.outcome c] }

/-- The outcome with which each class is dropped (R84, R181); `ARP_REQUEST` is the one class not dropped. -/
def dropCode : FrameClass → Option OutcomeCode
  | .frameRunt => some .dropEthTooShort
  | .frameOther => some .dropEthertype
  | .arpShortHdr => some .dropArpTooShort
  | .arpUnsupported => some .dropArpUnsupported
  | .arpShortBody => some .dropArpTooShort
  | .arpRequest => none
  | .arpReply => some .dropNoReply
  | .arpOtherOp => some .dropNoReply

/-- A hardware address as its six bytes on the wire (R55). -/
def haWire (a : HA) : List Byte := [a.b0, a.b1, a.b2, a.b3, a.b4, a.b5]

/-- A 16-bit number as its two bytes on the wire, most significant first (R54), by division. -/
def u16Wire (v : U16) : List Byte := [BitVec.ofNat 8 (v.toNat / 2 ^ 8), BitVec.ofNat 8 v.toNat]

/-- A 32-bit number as its four bytes on the wire, most significant first (R54), by division. -/
def u32Wire (v : U32) : List Byte :=
  [BitVec.ofNat 8 (v.toNat / 2 ^ 24), BitVec.ofNat 8 (v.toNat / 2 ^ 16), BitVec.ofNat 8 (v.toNat / 2 ^ 8),
    BitVec.ofNat 8 v.toNat]

/-- The 42 bytes of the reply to a request, as the last column of R82's table pictures them. -/
def replyWire (la sha : HA) (spa tpa : PA) : List Byte :=
  haWire sha ++ haWire la ++ [0x08#8, 0x06#8, 0x00#8, 0x01#8, 0x08#8, 0x00#8, 0x06#8, 0x04#8, 0x00#8, 0x02#8] ++
    haWire la ++ u32Wire tpa ++ haWire sha ++ u32Wire spa

/-- The read a cycle issues in the step from a port in this state: with a read in flight none, since the one in
flight is the cycle's (R151, R195). -/
def readIssue : Port → List Event
  | .idle => [.readIssued Config.maxLen]
  | .reading => []
  | .writing _ => []

/-- The events of a cycle found with its port in state `p`, whose read was answered `rx` and whose write, if any,
was answered `wr`. -/
def cycleEvents (p : Port) (rx : ReadAnswer) (wr : WriteAnswer) (r : CycleResult) : List Event :=
  readIssue p ++ [.readAnswered rx] ++
    (match r.tx with
      | none => []
      | some t => [.writeIssued t, .writeAnswered wr]) ++ [.outcome r.outcome]

/-- How many reads a trace shows issued (R159). -/
def readsIssued (t : List Event) : Nat := t.countP fun e => match e with
  | .readIssued _ => true
  | .readAnswered _ => false
  | .writeIssued _ => false
  | .writeAnswered _ => false
  | .outcome _ => false

/-- The frames a trace shows handed to the device (R162). -/
def framesWritten (t : List Event) : List (List Byte) := t.filterMap fun e => match e with
  | .readIssued _ => none
  | .readAnswered _ => none
  | .writeIssued b => some b
  | .writeAnswered _ => none
  | .outcome _ => none

end Sys2Proof.Machine
end

