-- ==== Sys2Proof/WellFormed.lean ====
section
/-! DEFINITION. Well-formed instructions: the operands a frame class of R84 or an operation of R88 can
have. Checks that a field's type already makes (R112: "the types make every field fit") do not stand
here. -/

namespace Sys2Proof

/-- R84: what tells each class from the others, and no frame longer than the receive buffer (R53, R86).
R161, R162, R158: the operands of the transactions, and of `cycle` the read answer's bound. -/
def wellFormed : Instr → Bool
  | .frameRunt bytes => decide (bytes.length < 14)
  | .arpRequest _ _ _ _ _ _ tail => Config.fitsBuffer (42 + tail.length)
  | .arpReply _ _ _ _ _ _ tail => Config.fitsBuffer (42 + tail.length)
  | .arpOtherOp _ _ oper _ _ _ _ tail =>
      decide (oper ≠ Config.opRequest) && decide (oper ≠ Config.opReply) && Config.fitsBuffer (42 + tail.length)
  | .arpShortBody _ _ _ rest => decide (rest.length < 20)
  | .arpUnsupported _ _ payload =>
      decide (8 ≤ payload.length) && decide (payload.take 6 ≠ gateBytes) && Config.fitsBuffer (14 + payload.length)
  | .arpShortHdr _ _ payload => decide (payload.length < 8)
  | .frameOther _ _ etype payload => decide (etype ≠ Config.ethertypeArp) && Config.fitsBuffer (14 + payload.length)
  | .ntoh16 _ => true
  | .ntoh32 _ => true
  | .hton16 _ => true
  | .hton32 _ => true
  | .bswap16 _ => true
  | .bswap32 _ => true
  | .decodeEthernet _ => true
  | .encodeEthernet _ => true
  | .decodeArp _ => true
  | .encodeArp _ => true
  | .validArp _ => true
  | .handle _ _ _ => true
  | .wrapReply _ _ _ => true
  | .readFrame maxLength => decide (maxLength = Config.maxLen)
  | .writeFrame bytes => decide (bytes.length = Config.txFrameLen)
  | .cycle _ _ rx _ =>
      match rx with
      | .frame b => Config.fitsBuffer b.length
      | .failure => true

end Sys2Proof
end

