-- ==== Sys2Proof/Certificates/Slice0/Obligations.lean ====
section
/-! DEFINITION. The statements for the provers. Each docstring names the rule of spec/ it formalises, or says
what in it is the model's own choice and which log entry holds it. -/

open Sys2Proof Sys2Proof.Machine

/-! ### Decoder and encoder (30_encoding.md) -/

/-- R80 to R84: the frame of a well-formed frame-class instruction decodes to that instruction, with every
operand at every value. That a frame class carries its whole frame is the model's choice (log entry 10). -/
def Obligations.DecodeOfEncodedInstruction : Prop :=
  ∀ (i : Instr) (b : List Byte), wellFormed i = true → encode i = some b → decode b = .instr i

/-- R80 to R84, the other direction: a frame that decodes is the encoding of what it decodes to, which is
well-formed; no byte of a frame is lost (log entry 10). -/
def Obligations.EncodeOfDecodedFrame : Prop :=
  ∀ (b : List Byte) (i : Instr), decode b = .instr i → wellFormed i = true ∧ encode i = some b

/-- R84's table of conditions, on the bytes of the frame, in its order. A sequence of more than `MAXLEN`
bytes is rejected by name, which is the model's choice (log entry 10). -/
def Obligations.ClassConditionsInOrder : Prop :=
  ∀ b : List Byte,
    (Config.maxLen < b.length → decode b = .rejected (.overCapacity b.length)) ∧
    (b.length ≤ Config.maxLen → ∃ i, decode b = .instr i ∧ classOf i = some (
      if b.length < 14 then .frameRunt
      else if (b.drop 12).take 2 ≠ [0x08#8, 0x06#8] then .frameOther
      else if b.length < 22 then .arpShortHdr
      else if (b.drop 14).take 6 ≠ [0x00#8, 0x01#8, 0x08#8, 0x00#8, 0x06#8, 0x04#8] then .arpUnsupported
      else if b.length < 42 then .arpShortBody
      else if (b.drop 20).take 2 = [0x00#8, 0x01#8] then .arpRequest
      else if (b.drop 20).take 2 = [0x00#8, 0x02#8] then .arpReply
      else .arpOtherOp))

/-- R84, its last paragraph: the mask rows of the opcode table and the ordered conditions give the same class
for every frame. -/
def Obligations.OpcodeTableAgreesWithDecoder : Prop :=
  ∀ b : List Byte, b.length ≤ Config.maxLen → ∃ i, decode b = .instr i ∧ tableClass b = classOf i

/-- R80 to R84 on frames written out byte by byte: a request, a reply, a message cut short, a runt, and an
IPv4 frame (the vectors V1, V12, V7, V3, V9 of 95_test_vectors.md). -/
def Obligations.SampleFramesDecode : Prop :=
  decode [0xff#8, 0xff#8, 0xff#8, 0xff#8, 0xff#8, 0xff#8, 0x02#8, 0x00#8, 0x00#8, 0x00#8, 0x00#8, 0x01#8, 0x08#8, 0x06#8,
      0x00#8, 0x01#8, 0x08#8, 0x00#8, 0x06#8, 0x04#8, 0x00#8, 0x01#8, 0x02#8, 0x00#8, 0x00#8, 0x00#8, 0x00#8, 0x01#8,
      0x0a#8, 0x00#8, 0x00#8, 0x05#8, 0x00#8, 0x00#8, 0x00#8, 0x00#8, 0x00#8, 0x00#8, 0x0a#8, 0x00#8, 0x00#8, 0x01#8] =
    .instr (.arpRequest ⟨0xff#8, 0xff#8, 0xff#8, 0xff#8, 0xff#8, 0xff#8⟩ ⟨0x02#8, 0x00#8, 0x00#8, 0x00#8, 0x00#8, 0x01#8⟩
      ⟨0x02#8, 0x00#8, 0x00#8, 0x00#8, 0x00#8, 0x01#8⟩ 0x0A000005#32 ⟨0x00#8, 0x00#8, 0x00#8, 0x00#8, 0x00#8, 0x00#8⟩
      0x0A000001#32 []) ∧
  decode [0x02#8, 0x00#8, 0x00#8, 0x00#8, 0x00#8, 0x02#8, 0x02#8, 0x00#8, 0x00#8, 0x00#8, 0x00#8, 0x01#8, 0x08#8, 0x06#8,
      0x00#8, 0x01#8, 0x08#8, 0x00#8, 0x06#8, 0x04#8, 0x00#8, 0x02#8, 0x02#8, 0x00#8, 0x00#8, 0x00#8, 0x00#8, 0x01#8,
      0x0a#8, 0x00#8, 0x00#8, 0x05#8, 0x02#8, 0x00#8, 0x00#8, 0x00#8, 0x00#8, 0x02#8, 0x0a#8, 0x00#8, 0x00#8, 0x01#8] =
    .instr (.arpReply ⟨0x02#8, 0x00#8, 0x00#8, 0x00#8, 0x00#8, 0x02#8⟩ ⟨0x02#8, 0x00#8, 0x00#8, 0x00#8, 0x00#8, 0x01#8⟩
      ⟨0x02#8, 0x00#8, 0x00#8, 0x00#8, 0x00#8, 0x01#8⟩ 0x0A000005#32 ⟨0x02#8, 0x00#8, 0x00#8, 0x00#8, 0x00#8, 0x02#8⟩
      0x0A000001#32 []) ∧
  decode [0xff#8, 0xff#8, 0xff#8, 0xff#8, 0xff#8, 0xff#8, 0x02#8, 0x00#8, 0x00#8, 0x00#8, 0x00#8, 0x01#8, 0x08#8, 0x06#8,
      0x00#8, 0x01#8, 0x08#8, 0x00#8, 0x06#8, 0x04#8, 0x00#8, 0x01#8] =
    .instr (.arpShortBody ⟨0xff#8, 0xff#8, 0xff#8, 0xff#8, 0xff#8, 0xff#8⟩ ⟨0x02#8, 0x00#8, 0x00#8, 0x00#8, 0x00#8, 0x01#8⟩
      1#16 []) ∧
  decode [] = .instr (.frameRunt []) ∧
  decode [0x02#8, 0x00#8, 0x00#8, 0x00#8, 0x00#8, 0x02#8, 0x02#8, 0x00#8, 0x00#8, 0x00#8, 0x00#8, 0x01#8, 0x08#8, 0x00#8,
      0x45#8, 0x00#8, 0x00#8, 0x1c#8] =
    .instr (.frameOther ⟨0x02#8, 0x00#8, 0x00#8, 0x00#8, 0x00#8, 0x02#8⟩ ⟨0x02#8, 0x00#8, 0x00#8, 0x00#8, 0x00#8, 0x01#8⟩
      0x0800#16 [0x45#8, 0x00#8, 0x00#8, 0x1c#8])

/-- R89: the shorthands `ARPREQ` and `ARPREP` are 42 bytes and are frames of the classes `ARP_REQUEST` (with a
zero `tha`) and `ARP_REPLY`. -/
def Obligations.ShorthandsAreRequestAndReplyFrames : Prop :=
  ∀ (dst src sha tha : HA) (spa tpa : PA),
    (arpReq dst src sha spa tpa).length = 42 ∧ (arpRep dst src sha spa tha tpa).length = 42 ∧
    decode (arpReq dst src sha spa tpa) =
      .instr (.arpRequest dst src sha spa ⟨0#8, 0#8, 0#8, 0#8, 0#8, 0#8⟩ tpa []) ∧
    decode (arpRep dst src sha spa tha tpa) = .instr (.arpReply dst src sha spa tha tpa [])

/-! ### Byte-order converter (40_byteorder.md). The result is returned in the model's own output field `ret`
(log entry 4); nothing else changes (R29). -/

/-- R110, R111. -/
def Obligations.NtohReturnsBigEndianValue : Prop :=
  ∀ s : State, s.phase ≠ .halted →
    (∀ b : Wire2, exec (.ntoh16 b) s =
      .next { s with ret := some (.ok (.u16 (BitVec.ofNat 16 (2 ^ 8 * b.b0.toNat + b.b1.toNat)))) }) ∧
    (∀ b : Wire4, exec (.ntoh32 b) s =
      .next { s with ret := some (.ok (.u32 (BitVec.ofNat 32
        (2 ^ 24 * b.b0.toNat + 2 ^ 16 * b.b1.toNat + 2 ^ 8 * b.b2.toNat + b.b3.toNat)))) })

/-- R112, R113. -/
def Obligations.HtonReturnsMostSignificantByteFirst : Prop :=
  ∀ s : State, s.phase ≠ .halted →
    (∀ v : U16, exec (.hton16 v) s =
      .next { s with ret := some (.ok (.wire2 ⟨BitVec.ofNat 8 (v.toNat / 2 ^ 8), BitVec.ofNat 8 v.toNat⟩)) }) ∧
    (∀ v : U32, exec (.hton32 v) s =
      .next { s with ret := some (.ok (.wire4 ⟨BitVec.ofNat 8 (v.toNat / 2 ^ 24), BitVec.ofNat 8 (v.toNat / 2 ^ 16),
        BitVec.ofNat 8 (v.toNat / 2 ^ 8), BitVec.ofNat 8 v.toNat⟩)) })

/-- R114: the two swaps on bytes, that each undoes itself, and the lane view: with either lane order, loading
the word and swapping on a little host is the network-to-host conversion, and the host-to-network conversion
is the inverse with the same swap. -/
def Obligations.ByteSwapAndLaneView : Prop :=
  (∀ (a b : Byte) (s : State), s.phase ≠ .halted →
    exec (.bswap16 (a ++ b)) s = .next { s with ret := some (.ok (.u16 (b ++ a))) }) ∧
  (∀ (a b c d : Byte) (s : State), s.phase ≠ .halted →
    exec (.bswap32 (a ++ b ++ c ++ d)) s = .next { s with ret := some (.ok (.u32 (d ++ c ++ b ++ a))) }) ∧
  (∀ w : U16, bswap16 (bswap16 w) = w) ∧ (∀ w : U32, bswap32 (bswap32 w) = w) ∧
  (∀ b : Wire2, ntoh16 b = load16 .big b ∧ ntoh16 b = bswap16 (load16 .little b)) ∧
  (∀ b : Wire4, ntoh32 b = load32 .big b ∧ ntoh32 b = bswap32 (load32 .little b)) ∧
  (∀ (o : LaneOrder) (v : U16), laneHton16 o v = hton16 v ∧ laneNtoh16 o (hton16 v) = v) ∧
  (∀ (o : LaneOrder) (v : U32), laneHton32 o v = hton32 v ∧ laneNtoh32 o (hton32 v) = v)

/-- R115: the conversions are bijections, each the other's inverse. -/
def Obligations.ConversionsAreInverse : Prop :=
  (∀ v : U16, ntoh16 (hton16 v) = v) ∧ (∀ b : Wire2, hton16 (ntoh16 b) = b) ∧
  (∀ v : U32, ntoh32 (hton32 v) = v) ∧ (∀ b : Wire4, hton32 (ntoh32 b) = b)

/-! ### Ethernet codec (41_ethernet_codec.md) -/

/-- R120: fewer than 14 bytes fail, whatever they are; every sequence of 14 header bytes and a payload
decodes. -/
def Obligations.DecodeEthernetReturnsFrameOrTooShort : Prop :=
  ∀ s : State, s.phase ≠ .halted →
    (∀ b : List Byte, b.length < 14 →
      exec (.decodeEthernet b) s = .next { s with ret := some (.raise .frameTooShort) }) ∧
    (∀ (d0 d1 d2 d3 d4 d5 s0 s1 s2 s3 s4 s5 h l : Byte) (payload : List Byte),
      exec (.decodeEthernet ([d0, d1, d2, d3, d4, d5, s0, s1, s2, s3, s4, s5, h, l] ++ payload)) s =
        .next { s with ret := some (.ok (.frame ⟨⟨d0, d1, d2, d3, d4, d5⟩, ⟨s0, s1, s2, s3, s4, s5⟩,
          BitVec.ofNat 16 (2 ^ 8 * h.toNat + l.toNat), payload⟩)) })

/-- R121: destination, source, the ethertype most significant byte first, the payload unchanged; nothing is
padded. -/
def Obligations.EncodeEthernetReturnsHeaderAndPayload : Prop :=
  ∀ (f : EthernetFrame) (s : State), s.phase ≠ .halted →
    exec (.encodeEthernet f) s =
      .next { s with ret := some (.ok (.bytes (haWire f.dst ++ haWire f.src ++ u16Wire f.etype ++ f.payload))) }

/-- R122: laws (a), (b) and (c). -/
def Obligations.EthernetCodecRoundTrips : Prop :=
  (∀ b : List Byte, 14 ≤ b.length → ∃ f, Machine.decodeEthernet b = .ok f ∧ Machine.encodeEthernet f = b) ∧
  (∀ f : EthernetFrame, Machine.decodeEthernet (Machine.encodeEthernet f) = .ok f) ∧
  (∀ b : List Byte, b.length < 14 → Machine.decodeEthernet b = .raise .frameTooShort)

/-! ### ARP codec (42_arp_codec.md) -/

/-- R130: the three tests in their order, and the fields by the layout of R81; the bytes after the 28th
(R136) change nothing. -/
def Obligations.DecodeArpReturnsMessageOrFailure : Prop :=
  ∀ s : State, s.phase ≠ .halted →
    (∀ p : List Byte, p.length < 8 →
      exec (.decodeArp p) s = .next { s with ret := some (.raise .frameTooShort) }) ∧
    (∀ (h0 h1 t0 t1 hl pl o0 o1 : Byte) (rest : List Byte),
      ¬(h0 = 0x00#8 ∧ h1 = 0x01#8 ∧ t0 = 0x08#8 ∧ t1 = 0x00#8 ∧ hl = 0x06#8 ∧ pl = 0x04#8) →
      exec (.decodeArp ([h0, h1, t0, t1, hl, pl, o0, o1] ++ rest)) s =
        .next { s with ret := some (.raise .unsupported) }) ∧
    (∀ (o0 o1 : Byte) (rest : List Byte), rest.length < 20 →
      exec (.decodeArp ([0x00#8, 0x01#8, 0x08#8, 0x00#8, 0x06#8, 0x04#8, o0, o1] ++ rest)) s =
        .next { s with ret := some (.raise .frameTooShort) }) ∧
    (∀ (o0 o1 a0 a1 a2 a3 a4 a5 p0 p1 p2 p3 c0 c1 c2 c3 c4 c5 q0 q1 q2 q3 : Byte) (tail : List Byte),
      exec (.decodeArp ([0x00#8, 0x01#8, 0x08#8, 0x00#8, 0x06#8, 0x04#8, o0, o1, a0, a1, a2, a3, a4, a5, p0, p1, p2, p3,
          c0, c1, c2, c3, c4, c5, q0, q1, q2, q3] ++ tail)) s =
        .next { s with ret := some (.ok (.message ⟨1#16, 0x0800#16, 6#8, 4#8, BitVec.ofNat 16 (2 ^ 8 * o0.toNat + o1.toNat),
          ⟨a0, a1, a2, a3, a4, a5⟩,
          BitVec.ofNat 32 (2 ^ 24 * p0.toNat + 2 ^ 16 * p1.toNat + 2 ^ 8 * p2.toNat + p3.toNat),
          ⟨c0, c1, c2, c3, c4, c5⟩,
          BitVec.ofNat 32 (2 ^ 24 * q0.toNat + 2 ^ 16 * q1.toNat + 2 ^ 8 * q2.toNat + q3.toNat)⟩)) })

/-- R131: the nine fields in the fixed layout, whatever `hlen` and `plen` say: 28 bytes. -/
def Obligations.EncodeArpReturnsFixedLayout : Prop :=
  ∀ (m : ArpMessage) (s : State), s.phase ≠ .halted →
    ∃ b : List Byte, b.length = 28 ∧
      b = u16Wire m.htype ++ u16Wire m.ptype ++ [m.hlen, m.plen] ++ u16Wire m.oper ++ haWire m.sha ++ u32Wire m.spa ++
        haWire m.tha ++ u32Wire m.tpa ∧
      exec (.encodeArp m) s = .next { s with ret := some (.ok (.bytes b)) }

/-- R132: the predicate, and that every message `decodeArp` returns satisfies it. -/
def Obligations.ValidArpReadsFourFields : Prop :=
  (∀ (m : ArpMessage) (s : State), s.phase ≠ .halted →
    exec (.validArp m) s = .next { s with ret := some (.ok (.boolean
      (decide (m.htype = 1#16 ∧ m.ptype = 0x0800#16 ∧ m.hlen = 6#8 ∧ m.plen = 4#8)))) }) ∧
  (∀ (p : List Byte) (m : ArpMessage), Machine.decodeArp p = .ok m → Machine.validArp m = true)

/-- R133: laws (a), (b) and (c). -/
def Obligations.ArpCodecRoundTrips : Prop :=
  (∀ m : ArpMessage, Machine.validArp m = true → Machine.decodeArp (Machine.encodeArp m) = .ok m) ∧
  (∀ (p : List Byte) (m : ArpMessage), Machine.decodeArp p = .ok m → Machine.encodeArp m = p.take 28) ∧
  (∀ m : ArpMessage, Machine.validArp m = false → Machine.decodeArp (Machine.encodeArp m) = .raise .unsupported)

/-! ### Responder (43_arp_responder.md) -/

/-- R140: `NoReply` exactly when the message is no Request or fails the validity gate; else the reply, field by
field. -/
def Obligations.HandleReturnsReplyOrNoReply : Prop :=
  ∀ (m : ArpMessage) (la : HA) (lp : PA) (s : State), s.phase ≠ .halted →
    exec (.handle m la lp) s = .next { s with ret := some (
      if m.oper = 1#16 ∧ m.htype = 1#16 ∧ m.ptype = 0x0800#16 ∧ m.hlen = 6#8 ∧ m.plen = 4#8 then
        .ok (.message ⟨m.htype, m.ptype, m.hlen, m.plen, 2#16, la, m.tpa, m.sha, m.spa⟩)
      else .raise .noReply) }

/-- R141: every valid Request is answered, whatever address it asks about, and the local protocol address
influences no output. -/
def Obligations.HandleFiltersNoAddress : Prop :=
  (∀ (m : ArpMessage) (la : HA) (lp : PA), Machine.validArp m = true → m.oper = 1#16 →
    ∃ r, Machine.handle m la lp = .ok r ∧ r.spa = m.tpa) ∧
  (∀ (m : ArpMessage) (la : HA) (lp lp' : PA), Machine.handle m la lp = Machine.handle m la lp')

/-- R142: the frame around the reply goes to the request's `sha`; with the reply `handle` gives, its
destination is the reply's `tha`, its source the reply's `sha`, and it encodes to 42 bytes. -/
def Obligations.WrapReplyAddressesTheRequester : Prop :=
  ∀ (m r : ArpMessage) (la : HA) (s : State), s.phase ≠ .halted →
    ∃ f : EthernetFrame, exec (.wrapReply m r la) s = .next { s with ret := some (.ok (.frame f)) } ∧
      f = ⟨m.sha, la, 0x0806#16, Machine.encodeArp r⟩ ∧
      ∀ lp : PA, Machine.handle m la lp = .ok r →
        f.dst = r.tha ∧ f.src = r.sha ∧ f.payload.length = 28 ∧ (Machine.encodeEthernet f).length = 42

/-! ### Device boundary (44_frame_dispatcher.md R160 to R162) -/

/-- R161: an answer of at most `MAXLEN` bytes is consumed and returned; until the device answers, the read
stays in flight (R195). That a transaction's answer is taken from a list in State, that the port's events are
recorded, and that the operation on its own moves no other register are the model's choices (log entries 2, 3,
12). The clauses for a port already reading, that the operation takes up the read in flight, the dispatcher's own in
`ReadFrame` too, and its answer goes to `ret`, are the model's choice and no rule of the spec (log entry 9, unsafe). -/
def Obligations.ReadFrameReturnsTheDevicesAnswer : Prop :=
  ∀ s : State, s.phase ≠ .halted →
    (∀ (b : List Byte) (rest : List ReadAnswer), s.rxAnswers = .frame b :: rest → b.length ≤ Config.maxLen →
      (s.port = .idle → exec (.readFrame Config.maxLen) s = .next { s with
        rxAnswers := rest, trace := s.trace ++ [.readIssued Config.maxLen, .readAnswered (.frame b)],
        ret := some (.ok (.bytes b)) }) ∧
      (s.port = .reading → exec (.readFrame Config.maxLen) s = .next { s with
        port := .idle, rxAnswers := rest, trace := s.trace ++ [.readAnswered (.frame b)],
        ret := some (.ok (.bytes b)) })) ∧
    (∀ rest : List ReadAnswer, s.rxAnswers = .failure :: rest →
      (s.port = .idle → exec (.readFrame Config.maxLen) s = .next { s with
        rxAnswers := rest, trace := s.trace ++ [.readIssued Config.maxLen, .readAnswered .failure],
        ret := some (.raise .readFailure) }) ∧
      (s.port = .reading → exec (.readFrame Config.maxLen) s = .next { s with
        port := .idle, rxAnswers := rest, trace := s.trace ++ [.readAnswered .failure],
        ret := some (.raise .readFailure) })) ∧
    (s.rxAnswers = [] →
      (s.port = .idle → exec (.readFrame Config.maxLen) s = .next { s with
        port := .reading, trace := s.trace ++ [.readIssued Config.maxLen] }) ∧
      (s.port = .reading → exec (.readFrame Config.maxLen) s = .next s))

/-- R162: the frame is handed to the environment, and the device's answer, of any count, is returned; until
the device answers, the write stays in flight (R224). The choices are those of log entries 2, 3 and 12. The clauses
for the same write already in flight, that the operation takes up that write, the dispatcher's own in `EncodeAndWrite`
too, and its answer goes to `ret`, are the model's choice and no rule of the spec (log entry 9, unsafe). -/
def Obligations.WriteFrameHandsTheFrameOver : Prop :=
  ∀ (b : List Byte) (s : State), s.phase ≠ .halted →
    (∀ (a : WriteAnswer) (rest : List WriteAnswer), s.wrAnswers = a :: rest →
      (s.port = .idle → exec (.writeFrame b) s = .next { s with
        wrAnswers := rest, trace := s.trace ++ [.writeIssued b, .writeAnswered a],
        ret := some (match a with
          | .wrote k => .ok (.count k)
          | .failure => .raise .writeFailure) }) ∧
      (s.port = .writing b → exec (.writeFrame b) s = .next { s with
        port := .idle, wrAnswers := rest, trace := s.trace ++ [.writeAnswered a],
        ret := some (match a with
          | .wrote k => .ok (.count k)
          | .failure => .raise .writeFailure) })) ∧
    (s.wrAnswers = [] →
      (s.port = .idle → exec (.writeFrame b) s = .next { s with
        port := .writing b, trace := s.trace ++ [.writeIssued b] }) ∧
      (s.port = .writing b → exec (.writeFrame b) s = .next s))

/-- R62 and R161 say what the environment and the core never do; that the model stops there with a fault is its
choice (log entries 8 and 9). -/
def Obligations.UnlawfulTransactionsFault : Prop :=
  ∀ s : State, s.phase ≠ .halted →
    (∀ (n : Nat) (b : List Byte), s.port = .writing b → exec (.readFrame n) s = .fault .transactionInFlight) ∧
    (∀ b : List Byte, s.port = .reading → exec (.writeFrame b) s = .fault .transactionInFlight) ∧
    (∀ b b' : List Byte, s.port = .writing b' → b' ≠ b → exec (.writeFrame b) s = .fault .transactionInFlight) ∧
    (∀ i : Instr, (classOf i).isSome → s.port ≠ .idle → exec i s = .fault .transactionInFlight) ∧
    (∀ (b : List Byte) (rest : List ReadAnswer), s.port = .idle ∨ s.port = .reading → s.rxAnswers = .frame b :: rest →
      Config.maxLen < b.length → exec (.readFrame Config.maxLen) s = .fault (.frameOverCapacity b.length))

/-! ### The frame classes (30_encoding.md R84, 60_exceptions.md R183) -/

/-- R84 classes 1 and 2 with R152, R153, R183: a runt and a frame of another ethertype are dropped, with
nothing written. -/
def Obligations.RuntAndOtherFramesAreDropped : Prop :=
  ∀ s : State, s.phase ≠ .halted → s.port = .idle →
    (∀ bytes : List Byte, bytes.length < 14 → exec (.frameRunt bytes) s = .next (dropped .dropEthTooShort s)) ∧
    (∀ (dst src : HA) (etype : U16) (payload : List Byte), etype ≠ 0x0806#16 →
      exec (.frameOther dst src etype payload) s = .next (dropped .dropEthertype s))

/-- R84 classes 3, 4 and 5 with R130, R154, R183. -/
def Obligations.UndecodableArpFramesAreDropped : Prop :=
  ∀ s : State, s.phase ≠ .halted → s.port = .idle →
    (∀ (dst src : HA) (payload : List Byte), payload.length < 8 →
      exec (.arpShortHdr dst src payload) s = .next (dropped .dropArpTooShort s)) ∧
    (∀ (dst src : HA) (payload : List Byte), 8 ≤ payload.length →
      payload.take 6 ≠ [0x00#8, 0x01#8, 0x08#8, 0x00#8, 0x06#8, 0x04#8] →
      exec (.arpUnsupported dst src payload) s = .next (dropped .dropArpUnsupported s)) ∧
    (∀ (dst src : HA) (oper : U16) (rest : List Byte), rest.length < 20 →
      exec (.arpShortBody dst src oper rest) s = .next (dropped .dropArpTooShort s))

/-- R84 classes 7 and 8 with R140, R155, R183: an ARP Reply, and any operation but Request and Reply, get no
reply. -/
def Obligations.RepliesAndOtherOperationsAreDropped : Prop :=
  ∀ s : State, s.phase ≠ .halted → s.port = .idle →
    (∀ (dst src sha : HA) (spa : PA) (tha : HA) (tpa : PA) (tail : List Byte),
      exec (.arpReply dst src sha spa tha tpa tail) s = .next (dropped .dropNoReply s)) ∧
    (∀ (dst src : HA) (oper : U16) (sha : HA) (spa : PA) (tha : HA) (tpa : PA) (tail : List Byte),
      oper ≠ 1#16 → oper ≠ 2#16 →
      exec (.arpOtherOp dst src oper sha spa tha tpa tail) s = .next (dropped .dropNoReply s))

/-- R84 class 6 with R140, R142, R156: the 42-byte reply is written and the cycle ends with `REPLIED` or
`WRITE_FAILED`; everything but the phase, the working registers, the consumed answer and the trace is as it
was. The events and the answer lists are the model's form of the ports (log entries 2, 3). -/
def Obligations.RequestsAreAnswered : Prop :=
  ∀ (dst src sha : HA) (spa : PA) (tha : HA) (tpa : PA) (tail : List Byte) (a : WriteAnswer) (rest : List WriteAnswer)
    (s : State), s.phase ≠ .halted → s.port = .idle → s.wrAnswers = a :: rest →
    exec (.arpRequest dst src sha spa tha tpa tail) s = .next { s with
      phase := .readFrame, rxbuf := [], rxlen := none, eth := none, arp := none, rpl := none, txbuf := [], txlen := none,
      wrAnswers := rest,
      trace := s.trace ++ [.writeIssued (replyWire s.localHA sha spa tpa), .writeAnswered a,
        .outcome (match a with
          | .wrote _ => .replied
          | .failure => .writeFailed)] }

/-- R156, R224: while the device has not answered the write, the core waits in `EncodeAndWrite` with the reply
in `TXBUF` and the write in flight. The form of the wait is the model's choice (log entry 2). -/
def Obligations.UnansweredWriteBlocks : Prop :=
  ∀ (dst src sha : HA) (spa : PA) (tha : HA) (tpa : PA) (tail : List Byte) (s : State),
    s.phase ≠ .halted → s.port = .idle → s.wrAnswers = [] →
    ∃ t, exec (.arpRequest dst src sha spa tha tpa tail) s = .next t ∧ t.phase = .encodeAndWrite ∧
      t.port = .writing (replyWire s.localHA sha spa tpa) ∧ t.txlen = some 42 ∧
      (∀ x : Nat, bufByte t.txbuf x = (replyWire s.localHA sha spa tpa)[x]?) ∧
      t.trace = s.trace ++ [.writeIssued (replyWire s.localHA sha spa tpa)] ∧
      t.rxbuf = s.rxbuf ∧ t.rxlen = s.rxlen ∧ t.localHA = s.localHA ∧ t.localPA = s.localPA ∧
      t.rxAnswers = s.rxAnswers ∧ t.wrAnswers = s.wrAnswers ∧ t.ret = s.ret ∧ step t = .next t

/-- R84, R136, R144: the Ethernet addresses, `tha` and every byte from 42 on take no part in the reply, nor
does `LOCAL_PA` (R141). -/
def Obligations.ReplyIgnoresHeaderTargetAndTail : Prop :=
  ∀ (dst dst' src src' sha : HA) (spa : PA) (tha tha' : HA) (tpa : PA) (tail tail' : List Byte) (s : State) (lp : PA),
    s.wrAnswers ≠ [] →
    exec (.arpRequest dst src sha spa tha tpa tail) s = exec (.arpRequest dst' src' sha spa tha' tpa tail') s ∧
    (s.phase ≠ .halted → s.port = .idle →
      ∃ t t', exec (.arpRequest dst src sha spa tha tpa tail) s = .next t ∧
        exec (.arpRequest dst src sha spa tha tpa tail) { s with localPA := lp } = .next t' ∧
        t'.trace = t.trace ∧ t'.phase = t.phase)

/-! ### `cycle` (R158) -/

/-- R158 by the classes of R84: the three outputs of `cycle` on a read failure, on a frame of each class that is
dropped, and on a request. -/
def Obligations.CycleOutputsByFrameClass : Prop :=
  ∀ (la : HA) (lp : PA) (wr : WriteAnswer) (s : State), s.phase ≠ .halted →
    exec (.cycle la lp .failure wr) s = .next { s with ret := some (.ok (.cycleResult ⟨none, .readFailed, true⟩)) } ∧
    (∀ (i : Instr) (b : List Byte) (k : FrameClass) (c : OutcomeCode), wellFormed i = true → encode i = some b →
      classOf i = some k → dropCode k = some c →
      exec (.cycle la lp (.frame b) wr) s = .next { s with ret := some (.ok (.cycleResult ⟨none, c, false⟩)) }) ∧
    (∀ (dst src sha : HA) (spa : PA) (tha : HA) (tpa : PA) (tail b : List Byte),
      encode (.arpRequest dst src sha spa tha tpa tail) = some b →
      exec (.cycle la lp (.frame b) wr) s = .next { s with ret := some (.ok (.cycleResult
        ⟨some (replyWire la sha spa tpa), (match wr with
          | .wrote _ => .replied
          | .failure => .writeFailed), false⟩)) })

/-! ### The phases (44_frame_dispatcher.md R150 to R157) -/

/-- R151, R195, R224: whether the read goes out in this step (idle port) or is in flight (the idle wait), a frame is
captured whole and `DecodeEthernet` is next, a frame of 0 bytes too (D20), and a read failure halts the core; the
read in flight is not issued again; until the device answers, the core stays in `ReadFrame`. Answer lists and
events are log entries 2 and 3. -/
def Obligations.ReadFramePhaseCapturesOrHalts : Prop :=
  ∀ s : State, s.phase = .readFrame →
    (∀ (b : List Byte) (rest : List ReadAnswer), s.rxAnswers = .frame b :: rest → b.length ≤ Config.maxLen →
      ∃ m : Memory, Memory.wf m = true ∧ (∀ x : Nat, bufByte m x = b[x]?) ∧
        (s.port = .idle → phaseStep s = .next { s with
          phase := .decodeEthernet, rxbuf := m, rxlen := some b.length, rxAnswers := rest,
          trace := s.trace ++ [.readIssued Config.maxLen, .readAnswered (.frame b)] }) ∧
        (s.port = .reading → phaseStep s = .next { s with
          phase := .decodeEthernet, port := .idle, rxbuf := m, rxlen := some b.length, rxAnswers := rest,
          trace := s.trace ++ [.readAnswered (.frame b)] })) ∧
    (∀ rest : List ReadAnswer, s.rxAnswers = .failure :: rest →
      (s.port = .idle → phaseStep s = .next { s with
        phase := .halted, rxbuf := [], rxlen := none, eth := none, arp := none, rpl := none, txbuf := [],
        txlen := none, rxAnswers := rest,
        trace := s.trace ++ [.readIssued Config.maxLen, .readAnswered .failure, .outcome .readFailed] }) ∧
      (s.port = .reading → phaseStep s = .next { s with
        phase := .halted, port := .idle, rxbuf := [], rxlen := none, eth := none, arp := none, rpl := none,
        txbuf := [], txlen := none, rxAnswers := rest,
        trace := s.trace ++ [.readAnswered .failure, .outcome .readFailed] })) ∧
    (s.rxAnswers = [] →
      (s.port = .idle → phaseStep s = .next { s with
        port := .reading, trace := s.trace ++ [.readIssued Config.maxLen] }) ∧
      (s.port = .reading → phaseStep s = .next s))

/-- R152: with the frame `b` in hand, fewer than 14 bytes are dropped, else `ETH` is written. -/
def Obligations.DecodeEthernetPhaseWritesEthOrDrops : Prop :=
  ∀ (s : State) (b : List Byte), s.phase = .decodeEthernet → heldFrame s = .ok b →
    (b.length < 14 → phaseStep s = .next (dropped .dropEthTooShort s)) ∧
    (14 ≤ b.length → ∃ f, Machine.encodeEthernet f = b ∧ phaseStep s = .next { s with phase := .classify, eth := some f })

/-- R153: only the ethertype 0x0806 goes on. -/
def Obligations.ClassifyPhaseTestsEthertype : Prop :=
  ∀ (s : State) (f : EthernetFrame), s.phase = .classify → s.eth = some f →
    phaseStep s = .next (if f.etype = 0x0806#16 then { s with phase := .decodeArp } else dropped .dropEthertype s)

/-- R154: `ARP` is written, or the frame dropped with the code of the failure. -/
def Obligations.DecodeArpPhaseWritesArpOrDrops : Prop :=
  ∀ (s : State) (f : EthernetFrame), s.phase = .decodeArp → s.eth = some f →
    (∀ m, Machine.decodeArp f.payload = .ok m → phaseStep s = .next { s with phase := .respond, arp := some m }) ∧
    (Machine.decodeArp f.payload = .raise .frameTooShort → phaseStep s = .next (dropped .dropArpTooShort s)) ∧
    (Machine.decodeArp f.payload = .raise .unsupported → phaseStep s = .next (dropped .dropArpUnsupported s)) ∧
    (∀ e, Machine.decodeArp f.payload = .raise e → e = .frameTooShort ∨ e = .unsupported)

/-- R155: with a valid message (R25), `NoReply` is exactly `ARP.oper != 1`. -/
def Obligations.RespondPhaseWritesReplyOrDrops : Prop :=
  ∀ (s : State) (m : ArpMessage), s.phase = .respond → s.arp = some m → Machine.validArp m = true →
    phaseStep s = .next (if m.oper = 1#16 then
        { s with phase := .encodeAndWrite,
                 rpl := some ⟨m.htype, m.ptype, m.hlen, m.plen, 2#16, s.localHA, m.tpa, m.sha, m.spa⟩ }
      else dropped .dropNoReply s)

/-- R156, R162, R224: the frame `w` written is the reply wrapped and encoded, issued once and not again while it is
in flight; the count is not examined; a failed write is not fatal; both answers lead to `ReadFrame`; until the
device answers, the core waits with `w` in `TXBUF`. Waiting for the answer is log entry 2; the last clause, the
stop with any other transaction in flight, is the model's choice (log entry 9). -/
def Obligations.EncodeAndWritePhaseWritesOnce : Prop :=
  ∀ (s : State) (m r : ArpMessage) (w : List Byte), s.phase = .encodeAndWrite → s.arp = some m → s.rpl = some r →
    w = Machine.encodeEthernet (Machine.wrapReply m r s.localHA) →
    (∀ (a : WriteAnswer) (rest : List WriteAnswer), s.wrAnswers = a :: rest →
      (s.port = .idle → phaseStep s = .next { dropped (match a with
            | .wrote _ => .replied
            | .failure => .writeFailed) s with
          wrAnswers := rest,
          trace := s.trace ++ [.writeIssued w, .writeAnswered a, .outcome (match a with
              | .wrote _ => .replied
              | .failure => .writeFailed)] }) ∧
      (s.port = .writing w → phaseStep s = .next { dropped (match a with
            | .wrote _ => .replied
            | .failure => .writeFailed) s with
          port := .idle, wrAnswers := rest,
          trace := s.trace ++ [.writeAnswered a, .outcome (match a with
              | .wrote _ => .replied
              | .failure => .writeFailed)] })) ∧
    (s.wrAnswers = [] →
      ∃ tx : Memory, Memory.wf tx = true ∧ (∀ x : Nat, bufByte tx x = w[x]?) ∧
        (s.port = .idle → ∃ t : State, t = { s with
            txbuf := tx, txlen := some 42, port := .writing w, trace := s.trace ++ [.writeIssued w] } ∧
          phaseStep s = .next t ∧ phaseStep t = .next t) ∧
        (s.port = .writing w → phaseStep s = .next { s with txbuf := tx, txlen := some 42 } ∧
          (Inv s → phaseStep s = .next s))) ∧
    (s.port = .reading ∨ (∃ b, s.port = .writing b ∧ b ≠ w) → phaseStep s = .fault .transactionInFlight)

/-- R157, R190: in `Halted` neither a step, a phase nor any instruction changes anything; only a reset leads
out (R185, R210). That an instruction invoked in `Halted` is without effect is the model's reading (log entry
13). -/
def Obligations.HaltedChangesNothing : Prop :=
  ∀ s : State, s.phase = .halted →
    step s = .next s ∧ phaseStep s = .next s ∧ (∀ i : Instr, exec i s = .next s) ∧
    (∀ (la : HA) (lp : PA) (rx : List ReadAnswer) (wr : List WriteAnswer), (hostReset la lp rx wr s).phase = .readFrame)

/-- R27, R13: reading a working register that holds no value is a fault, never a zero; so is reading a byte of
`RXBUF` below `RXLEN` that holds none (R152). -/
def Obligations.ReadingARegisterWithoutValueFaults : Prop :=
  ∀ s : State,
    (s.phase = .decodeEthernet → s.rxlen = none → phaseStep s = .fault (.noValue .rxlen)) ∧
    (∀ n x : Nat, s.phase = .decodeEthernet → s.rxlen = some n → x < n → bufByte s.rxbuf x = none →
      phaseStep s = .fault (.noValue .rxbuf)) ∧
    (s.phase = .classify → s.eth = none → phaseStep s = .fault (.noValue .eth)) ∧
    (s.phase = .decodeArp → s.eth = none → phaseStep s = .fault (.noValue .eth)) ∧
    (s.phase = .respond → s.arp = none → phaseStep s = .fault (.noValue .arp)) ∧
    (s.phase = .encodeAndWrite → s.arp = none → phaseStep s = .fault (.noValue .arp)) ∧
    (s.phase = .encodeAndWrite → s.arp.isSome → s.rpl = none → phaseStep s = .fault (.noValue .rpl))

/-- R51, R50, R57: after a capture, a read of `RXBUF` within the valid range gives the captured bytes, and one
outside it is a fault; likewise for `TXBUF`. R27: without a length, or over a byte that holds no value, a
read is a fault. -/
def Obligations.BufferReadsStayInTheValidRange : Prop :=
  ∀ (b : List Byte) (off n : Nat) (s : State),
    (off + n ≤ b.length → memRead .rxbuf off n (captureFrame b s) = .ok ((b.drop off).take n)) ∧
    (b.length < off + n → memRead .rxbuf off n (captureFrame b s) = .error (.outsideBuffer .rxbuf off n)) ∧
    (b.length = 42 → off + n ≤ 42 → memRead .txbuf off n (loadTx b s) = .ok ((b.drop off).take n)) ∧
    (42 < off + n → memRead .txbuf off n (loadTx b s) = .error (.outsideBuffer .txbuf off n)) ∧
    (s.rxlen = none → memRead .rxbuf off n s = .error (.noValue .rxlen)) ∧
    (s.txlen = none → memRead .txbuf off n s = .error (.noValue .txlen)) ∧
    (∀ len x : Nat, off + n ≤ len → off ≤ x → x < off + n →
      (s.rxlen = some len → bufByte s.rxbuf x = none → memRead .rxbuf off n s = .error (.noValue .rxbuf)) ∧
      (s.txlen = some len → bufByte s.txbuf x = none → memRead .txbuf off n s = .error (.noValue .txbuf)))

/-! ### The step -/

/-- With the device's next answer a frame that decodes to `i`, on an idle port or to the read in flight, the step is
`exec i` on the state the read leaves; with a frame in hand it is `exec` of the instruction in hand. That a step
is a cycle is the model's choice among those R158 allows (log entry 1). -/
def Obligations.StepRunsTheDecodedInstruction : Prop :=
  (∀ (s : State) (b : List Byte) (rest : List ReadAnswer) (i : Instr), s.phase = .readFrame →
    s.port = .idle ∨ s.port = .reading → s.rxAnswers = .frame b :: rest → decode b = .instr i →
    step s = exec i { s with
      phase := .decodeEthernet, port := .idle, rxbuf := bufCapture b, rxlen := some b.length, rxAnswers := rest,
      trace := s.trace ++ readIssue s.port ++ [.readAnswered (.frame b)] }) ∧
  (∀ (s : State) (b : List Byte) (i : Instr), s.phase = .decodeEthernet → heldFrame s = .ok b → decode b = .instr i →
    step s = exec i s)

/-- The step after `withFetchWord` runs the instruction `decodeTableWord` reads (log entries 11 and 14). -/
def Obligations.FetchWordRunsOnTheNextStep : Prop :=
  ∀ (s : State) (nbits w : Nat) (i : Instr), decodeTableWord nbits w = some i →
    ∃ t, step (s.withFetchWord nbits w) = exec i t ∧ t.phase = .decodeEthernet ∧ t.port = .idle ∧
      heldFrame t = .ok (tableFrame nbits w) ∧ t.localHA = s.localHA ∧ t.localPA = s.localPA ∧
      t.rxAnswers = s.rxAnswers ∧ t.wrAnswers = s.wrAnswers

/-- R150, R158: the step is the composition of the phases: from `ReadFrame` and from `DecodeEthernet` as many as
a cycle has, up to its end or to a transaction the device has not answered; from a later phase, one. -/
def Obligations.StepIsTheCompositionOfPhases : Prop :=
  ∀ s : State, Inv s →
    (s.phase = .readFrame ∨ s.phase = .decodeEthernet → step s = runPhases 6 s) ∧
    (s.phase ≠ .readFrame → s.phase ≠ .decodeEthernet → step s = phaseStep s)

/-- R158, R159, R164, R195: from `ReadFrame`, on an idle port or with the read in flight, with the device's answers
standing, a step is `cycle`: the same frame written, the same outcome, the same halt, with the port events of that
cycle in order, and every working register without value at its end. The answer lists and the events are the
model's form of the ports (log entries 2 and 3). -/
def Obligations.StepIsCycle : Prop :=
  ∀ (s : State) (rx : ReadAnswer) (rest : List ReadAnswer) (wr : WriteAnswer) (wrest : List WriteAnswer),
    s.phase = .readFrame → s.port = .idle ∨ s.port = .reading → s.rxAnswers = rx :: rest →
    answerLength rx ≤ Config.maxLen → s.wrAnswers = wr :: wrest →
    step s = .next { s with
      phase := if (Machine.cycle s.localHA s.localPA rx wr).halt then .halted else .readFrame,
      port := .idle,
      rxbuf := [], rxlen := none, eth := none, arp := none, rpl := none, txbuf := [], txlen := none,
      rxAnswers := rest,
      wrAnswers := if (Machine.cycle s.localHA s.localPA rx wr).tx.isSome then wrest else wr :: wrest,
      trace := s.trace ++ cycleEvents s.port rx wr (Machine.cycle s.localHA s.localPA rx wr) }

/-- R22 to R28, R62, R156: every step keeps the invariant of the core; among it, that the write in flight is the
reply held, wrapped and encoded. -/
def Obligations.StepKeepsTheInvariant : Prop :=
  ∀ s t : State, Inv s → step s = .next t → Inv t

/-- R31, R210: the invariant holds at reset, and after a reset by the environment from any state. -/
def Obligations.ResetMeetsTheInvariant : Prop :=
  Inv State.reset ∧
  ∀ (la : HA) (lp : PA) (rx : List ReadAnswer) (wr : List WriteAnswer) (s : State), Inv (hostReset la lp rx wr s)

/-- R27, R51 ("No rule performs one"), R53: from a state that meets the invariant, with a device that keeps R161,
a step never stops: no register without value is read, no buffer outside its range, and no transaction is
issued while another is in flight. -/
def Obligations.NoStepStops : Prop :=
  ∀ s : State, Inv s → DeviceLawful s → ∃ t, step s = .next t ∧ Inv t ∧ DeviceLawful t

/-- R165: the frame written, the outcome and the halt of a cycle depend on the hardware address, the frame read and
the device's answer to the write alone: not on the local protocol address, nor on anything earlier. Whether the
read goes out in the step or is in flight adds its issue to the events and changes nothing else. -/
def Obligations.CyclesAreIndependent : Prop :=
  ∀ (s₁ s₂ : State) (rx : ReadAnswer) (r₁ r₂ : List ReadAnswer) (wr : WriteAnswer) (w₁ w₂ : List WriteAnswer),
    s₁.phase = .readFrame → s₂.phase = .readFrame → s₁.port = .idle ∨ s₁.port = .reading →
    s₂.port = .idle ∨ s₂.port = .reading → s₁.localHA = s₂.localHA →
    s₁.rxAnswers = rx :: r₁ → s₂.rxAnswers = rx :: r₂ → s₁.wrAnswers = wr :: w₁ → s₂.wrAnswers = wr :: w₂ →
    answerLength rx ≤ Config.maxLen →
    ∃ (t₁ t₂ : State) (es : List Event), step s₁ = .next t₁ ∧ step s₂ = .next t₂ ∧
      t₁.trace = s₁.trace ++ readIssue s₁.port ++ es ∧ t₂.trace = s₂.trace ++ readIssue s₂.port ++ es ∧
      t₁.phase = t₂.phase

/-- R159: a cycle issues exactly one `readFrame`, in this step on an idle port, or the one in flight already; it
writes exactly one frame, the reply to the frame just read, if that is of class `ARP_REQUEST`, and none otherwise;
and no frame ends the loop. -/
def Obligations.OneReadAndAtMostOneWritePerCycle : Prop :=
  ∀ (s : State) (b : List Byte) (rest : List ReadAnswer), s.phase = .readFrame →
    s.port = .idle ∨ s.port = .reading → s.rxAnswers = .frame b :: rest → b.length ≤ Config.maxLen →
    ∃ t i, step s = .next t ∧ decode b = .instr i ∧ t.rxAnswers = rest ∧ t.phase ≠ .halted ∧
      (s.port = .idle → readsIssued t.trace = readsIssued s.trace + 1) ∧
      (s.port = .reading → readsIssued t.trace = readsIssued s.trace) ∧
      (classOf i ≠ some .arpRequest → framesWritten t.trace = framesWritten s.trace) ∧
      (∀ (dst src sha : HA) (spa : PA) (tha : HA) (tpa : PA) (tail : List Byte),
        i = .arpRequest dst src sha spa tha tpa tail →
        framesWritten t.trace = framesWritten s.trace ++ [replyWire s.localHA sha spa tpa])

/-- R156, R226: whatever a step writes, from any state that meets the invariant, is 42 bytes long and has
`08 06 00 01 08 00 06 04 00 02` at 12 to 21. -/
def Obligations.EveryFrameWrittenIsAReply : Prop :=
  ∀ s t : State, Inv s → step s = .next t →
    ∃ es : List Event, t.trace = s.trace ++ es ∧ ∀ b ∈ framesWritten es, b.length = 42 ∧
      (b.drop 12).take 10 = [0x08#8, 0x06#8, 0x00#8, 0x01#8, 0x08#8, 0x00#8, 0x06#8, 0x04#8, 0x00#8, 0x02#8]

/-- R185: a read failure, of the read issued in this step or of the one in flight, emits `READ_FAILED` and halts the
core; nothing is written, and the identity is kept. -/
def Obligations.ReadFailureHaltsTheCore : Prop :=
  ∀ (s : State) (rest : List ReadAnswer), s.phase = .readFrame → s.port = .idle ∨ s.port = .reading →
    s.rxAnswers = .failure :: rest →
    ∃ t, step s = .next t ∧ t.phase = .halted ∧ t.port = .idle ∧ t.rxAnswers = rest ∧
      framesWritten t.trace = framesWritten s.trace ∧
      t.trace = s.trace ++ readIssue s.port ++ [.readAnswered .failure, .outcome .readFailed] ∧
      t.localHA = s.localHA ∧ t.localPA = s.localPA ∧ workingClear t = true ∧ step t = .next t

/-- R186: a failed write leaves the core exactly as a successful one of any count does, but for the answer and the
outcome in the trace; the reply is not kept. -/
def Obligations.WriteFailureIsNotFatal : Prop :=
  ∀ (i : Instr) (k : Nat) (rest : List WriteAnswer) (s : State), classOf i = some .arpRequest → s.phase ≠ .halted →
    s.port = .idle →
    ∃ t b, exec i { s with wrAnswers := .failure :: rest } = .next t ∧ t.phase = .readFrame ∧ workingClear t = true ∧
      t.trace = s.trace ++ [.writeIssued b, .writeAnswered .failure, .outcome .writeFailed] ∧
      exec i { s with wrAnswers := .wrote k :: rest } = .next { t with
        trace := s.trace ++ [.writeIssued b, .writeAnswered (.wrote k), .outcome .replied] }

/-- R21, R222, U4: no instruction, no phase and no step changes the local identity. -/
def Obligations.LocalIdentityIsConstant : Prop :=
  (∀ (i : Instr) (s t : State), exec i s = .next t → t.localHA = s.localHA ∧ t.localPA = s.localPA) ∧
  (∀ s t : State, phaseStep s = .next t → t.localHA = s.localHA ∧ t.localPA = s.localPA) ∧
  (∀ s t : State, step s = .next t → t.localHA = s.localHA ∧ t.localPA = s.localPA)

/-- R50: no instruction and no step leaves a buffer out of canonical form (log entry 7). -/
def Obligations.BuffersStayCanonical : Prop :=
  (∀ (i : Instr) (s t : State), Memory.wf s.rxbuf = true → Memory.wf s.txbuf = true → exec i s = .next t →
    Memory.wf t.rxbuf = true ∧ Memory.wf t.txbuf = true) ∧
  (∀ s t : State, Memory.wf s.rxbuf = true → Memory.wf s.txbuf = true → step s = .next t →
    Memory.wf t.rxbuf = true ∧ Memory.wf t.txbuf = true)

/-- R11, R29, R30: a named operation invoked on its own, other than the two transactions, changes no register, no
buffer, no port and no device answer, and issues nothing. -/
def Obligations.PureOperationsTouchNothing : Prop :=
  ∀ (i : Instr) (s : State), classOf i = none → (∀ n, i ≠ .readFrame n) → (∀ b, i ≠ .writeFrame b) →
    ∃ t, exec i s = .next t ∧ { t with ret := s.ret } = s

/-- R30: nothing an operation returned is read by a later step (the field `ret` is an output of the model, log
entry 4). -/
def Obligations.ReturnedValueIsNeverRead : Prop :=
  ∀ (s : State) (r : Option (Tagged Value)),
    step { s with ret := r } =
      match step s with
      | .next t => .next { t with ret := r }
      | .fault f => .fault f
      | .refused f => .refused f

/-! ### Runs (44_frame_dispatcher.md R164). That a run goes by steps of one cycle, and that the device's answers are
delivered into lists in State as the run goes on, are the model's choices (log entries 1, 2 and 23). -/

/-- R164, R165, R159: a device that returns the frames `f 0`, `f 1`, … for ever, and answers the writes they cause with
`w 0`, `w 1`, …, gives a run that never ends: for every `n`, `n` cycles end, each with what `cycle` gives for that
frame on its own, and the core is back in `ReadFrame`. -/
def Obligations.RunIsTheConcatenationOfItsCycles : Prop :=
  ∀ (la : HA) (lp : PA) (f : Nat → List Byte) (w : Nat → WriteAnswer) (dev : Device),
    (∀ k, (f k).length ≤ Config.maxLen) →
    (∀ k, dev k = ([.frame (f k)], if (Machine.cycle la lp (.frame (f k)) (w k)).tx.isSome then [w k] else [])) →
    ∀ n, ∃ t, run dev n (resetWith la lp) = .next t ∧ t.phase = .readFrame ∧
      workingClear t = true ∧
      cyclesSeen t = (List.range n).map fun k => cycleRecord la lp (.frame (f k)) (w k)

/-- R164, R211, R215, D16: with a device that keeps R161, however it answers and whether it goes on answering or not, a
run from reset never stops with a fault; it halts, or it is an infinite sequence of cycles, or it waits for ever in a
read or a write that does not return; and the environment may stop it in any phase. By phases the run passes every
state it passes by cycles (with a device that delivers the same answers at its own moves). A stop between `ReadFrame`
and the end of a cycle shows the frame read and the write in flight, if any, and no outcome; and whatever moment a
history ends at, the cycles it shows are the first of the run's. -/
def Obligations.RunHaltsGoesOnWaitsOrIsStopped : Prop :=
  ∀ (la : HA) (lp : PA) (dev : Device), (∀ k, ∀ a ∈ (dev k).1, answerLength a ≤ Config.maxLen) →
    (∀ n, ∃ t, run dev n (resetWith la lp) = .next t ∧ Inv t) ∧
    (RunHalts dev (resetWith la lp) ∨ RunGoesOn dev (resetWith la lp) ∨ RunWaits dev (resetWith la lp)) ∧
    (∀ n t, run dev n (resetWith la lp) = .next t →
      ∃ dev' : Device, (∀ k, ∀ a ∈ (dev' k).1, answerLength a ≤ Config.maxLen) ∧ RunStops dev' (resetWith la lp) t) ∧
    (∀ n, ∃ t, phaseRun dev n (resetWith la lp) = .next t) ∧
    (∀ t, RunStops dev (resetWith la lp) t → Inv t ∧
      (t.phase = .readFrame ∨ t.phase = .halted → cycleUnderWay t = (none, none, none)) ∧
      (t.phase ≠ .readFrame → t.phase ≠ .halted →
        ∃ b, heldFrame t = .ok b ∧ cycleUnderWay t = (some (.frame b), writeInFlight t.port, none))) ∧
    (∀ h, History dev (resetWith la lp) h →
      ∃ t, RunStops dev (resetWith la lp) t ∧ (observe h).cycles <+: cyclesSeen t) ∧
    (∀ p : Phase, ∃ dev' : Device, (∀ k, ∀ a ∈ (dev' k).1, answerLength a ≤ Config.maxLen) ∧
      ∃ t, RunStops dev' (resetWith la lp) t ∧ t.phase = p)

/-! ### Reset and codes -/

/-- R31. The model's own fields, empty at reset by its choice, are log entry 17 and stand in no clause here but
the trace, whose emptiness is that no outcome is pending. -/
def Obligations.ResetState : Prop :=
  State.reset.phase = .readFrame ∧ State.reset.localHA = Config.localHA ∧ State.reset.localPA = Config.localPA ∧
  State.reset.rxbuf = [] ∧ State.reset.rxlen = none ∧ State.reset.eth = none ∧ State.reset.arp = none ∧
  State.reset.rpl = none ∧ State.reset.txbuf = [] ∧ State.reset.txlen = none ∧ State.reset.port = .idle ∧
  ∀ c, .outcome c ∉ State.reset.trace

/-- R210, R211, R214: the environment's reset, in any phase and with any transaction in flight, gives the reset
state with the identity and device answers supplied; it emits no outcome; what it leaves does not depend on
what was there but for the trace; and the first thing the core then does is issue a `readFrame`. The trace kept
is the model's choice (log entry 15). -/
def Obligations.HostResetForgetsEverything : Prop :=
  ∀ (la : HA) (lp : PA) (rx : List ReadAnswer) (wr : List WriteAnswer) (s s' : State),
    hostReset la lp rx wr s = { State.reset with
      localHA := la, localPA := lp, rxAnswers := rx, wrAnswers := wr, trace := s.trace } ∧
    (s.trace = s'.trace → hostReset la lp rx wr s = hostReset la lp rx wr s') ∧
    ((∀ a ∈ rx, answerLength a ≤ Config.maxLen) →
      ∃ t es, step (hostReset la lp rx wr s) = .next t ∧ t.trace = s.trace ++ .readIssued Config.maxLen :: es)

/-- R180, R181: the code numbers and the error classes of the outcomes; only the read failure is fatal. -/
def Obligations.OutcomeCodesAndClasses : Prop :=
  [OutcomeCode.replied, .dropEthTooShort, .dropEthertype, .dropArpTooShort, .dropArpUnsupported, .dropNoReply,
    .writeFailed, .readFailed].map outcomeNumber = [0, 1, 2, 3, 4, 5, 6, 7] ∧
  [OutcomeCode.replied, .dropEthTooShort, .dropEthertype, .dropArpTooShort, .dropArpUnsupported, .dropNoReply,
    .writeFailed, .readFailed].map outcomeErrorClass = [none, some .frameTooShort, some .unsupported,
      some .frameTooShort, some .unsupported, some .unsupported, some .deviceWriteFailure, some .deviceReadFailure] ∧
  (∀ c : OutcomeCode, (∃ e, outcomeErrorClass c = some e ∧ errorIsFatal e = true) ↔ c = .readFailed) ∧
  (∀ c : OutcomeCode, isDrop c = true ↔ outcomeErrorClass c = some .frameTooShort ∨ outcomeErrorClass c = some .unsupported)
end

