-- ==== Sys2Proof/Laws/Buffers.lean ====
section
/-! SUPPORT. The laws of the two buffers (R50, R51): a store keeps the canonical form, a read after a store
gives what was stored, and what a capture holds. -/

namespace Sys2Proof.Machine

/-- Every listed address is at least `x`. -/
def addressesFrom (x : Nat) (m : Memory) : Prop := ∀ c ∈ m, x ≤ c.1

theorem wf_cons {c : Host.Cell} {m : Memory} :
    Memory.wf (c :: m) = true ↔ addressesFrom (c.1 + 1) m ∧ Memory.wf m = true := by
  induction m generalizing c with
  | nil => simp [Memory.wf, addressesFrom]
  | cons d rest ih =>
    simp only [Memory.wf, Bool.and_eq_true, decide_eq_true_eq]
    constructor
    · rintro ⟨h, hw⟩
      refine ⟨?_, hw⟩
      intro e he
      rcases List.mem_cons.1 he with rfl | he
      · omega
      · have := (ih.1 hw).1 e he; omega
    · rintro ⟨h, hw⟩
      exact ⟨by have := h d (by simp); omega, hw⟩

theorem bufStore_addressesFrom {m : Memory} {x y : Nat} {v : Byte} (h : addressesFrom y m) (hxy : y ≤ x) :
    addressesFrom y (bufStore m x v) := by
  induction m with
  | nil => intro c hc; simp [bufStore] at hc; subst hc; exact hxy
  | cons c rest ih =>
    obtain ⟨a, w⟩ := c
    have hr : addressesFrom y rest := fun e he => h e (List.mem_cons_of_mem _ he)
    have ha : y ≤ a := h (a, w) (by simp)
    unfold bufStore
    split
    · intro e he
      rcases List.mem_cons.1 he with rfl | he
      · exact hxy
      · exact h e he
    · split
      · intro e he
        rcases List.mem_cons.1 he with rfl | he
        · exact hxy
        · exact hr e he
      · intro e he
        rcases List.mem_cons.1 he with rfl | he
        · exact ha
        · exact ih hr e he

/-- A store keeps the canonical form. -/
theorem bufStore_wf {m : Memory} {x : Nat} {v : Byte} (h : Memory.wf m = true) : Memory.wf (bufStore m x v) = true := by
  induction m with
  | nil => rfl
  | cons c rest ih =>
    obtain ⟨a, w⟩ := c
    obtain ⟨hf, hw⟩ := wf_cons.1 h
    unfold bufStore
    split
    · rename_i hlt
      refine wf_cons.2 ⟨?_, h⟩
      intro e he
      rcases List.mem_cons.1 he with rfl | he
      · exact hlt
      · have := hf e he; simp at this ⊢; omega
    · split
      · rename_i heq; subst heq; exact wf_cons.2 ⟨hf, hw⟩
      · exact wf_cons.2 ⟨bufStore_addressesFrom hf (by simp; omega), ih hw⟩

/-- Storing a sequence keeps the canonical form. -/
theorem bufStoreAll_wf {b : List Byte} {m : Memory} {x : Nat} (h : Memory.wf m = true) :
    Memory.wf (bufStoreAll m x b) = true := by
  induction b generalizing m x with
  | nil => exact h
  | cons v vs ih => exact ih (bufStore_wf h)

/-- A capture is in canonical form. -/
theorem bufCapture_wf (b : List Byte) : Memory.wf (bufCapture b) = true := bufStoreAll_wf rfl

/-- A read after a store: the stored byte at its address, every other address as before. -/
theorem bufByte_bufStore (m : Memory) (x y : Nat) (v : Byte) (h : Memory.wf m = true) :
    bufByte (bufStore m x v) y = if y = x then some v else bufByte m y := by
  induction m with
  | nil => simp [bufStore, bufByte, eq_comm]
  | cons c rest ih =>
    obtain ⟨a, w⟩ := c
    obtain ⟨hf, hw⟩ := wf_cons.1 h
    unfold bufStore
    split
    · by_cases hy : y = x
      · subst hy; simp [bufByte]
      · simp [bufByte, hy, Ne.symm hy]
    · split
      · rename_i heq
        subst heq
        by_cases hy : y = x
        · subst hy; simp [bufByte]
        · simp [bufByte, hy, Ne.symm hy]
      · rename_i hne
        by_cases hy : y = x
        · subst hy
          have : a ≠ y := fun e => hne e.symm
          simp [bufByte, this, ih hw]
        · simp [bufByte, hy, ih hw]

/-- Past every listed address a store appends. -/
theorem bufStore_append {m : Memory} {x : Nat} {v : Byte} (h : ∀ c ∈ m, c.1 < x) :
    bufStore m x v = m ++ [(x, v)] := by
  induction m with
  | nil => rfl
  | cons c rest ih =>
    obtain ⟨a, w⟩ := c
    have ha : a < x := h (a, w) (by simp)
    unfold bufStore
    rw [if_neg (by omega), if_neg (by omega), ih fun e he => h e (List.mem_cons_of_mem _ he)]
    rfl

theorem bufStoreAll_append {b : List Byte} {m : Memory} {x : Nat} (h : ∀ c ∈ m, c.1 < x) :
    bufStoreAll m x b = m ++ (List.range' x b.length).zip b := by
  induction b generalizing m x with
  | nil => simp [bufStoreAll]
  | cons v vs ih =>
    have h' : ∀ c ∈ m ++ [(x, v)], c.1 < x + 1 := by
      intro c hc
      rcases List.mem_append.1 hc with hc | hc
      · exact Nat.lt_succ_of_lt (h c hc)
      · simp at hc; subst hc; simp
    simp [bufStoreAll, bufStore_append h, ih h', List.range'_succ]

/-- What a capture holds: byte `i` of the sequence at address `i`, and nothing else. -/
theorem bufCapture_eq (b : List Byte) : bufCapture b = (List.range' 0 b.length).zip b := by
  simpa [bufCapture] using bufStoreAll_append (b := b) (m := []) (x := 0) (by simp)

/-- The addresses of a capture are 0 to its length less 1. -/
theorem bufCapture_addresses (b : List Byte) : (bufCapture b).map Prod.fst = List.range b.length := by
  rw [bufCapture_eq, List.map_fst_zip (by simp), List.range_eq_range']

theorem bufByte_zip_range' (b : List Byte) (x y : Nat) :
    bufByte ((List.range' x b.length).zip b) (x + y) = b[y]? := by
  induction b generalizing x y with
  | nil => simp [bufByte]
  | cons v vs ih =>
    cases y with
    | zero => simp [List.range'_succ, bufByte]
    | succ y =>
      have := ih (x + 1) y
      simpa [List.range'_succ, bufByte, Nat.add_assoc, Nat.add_comm 1 y] using this

/-- Byte `y` of a capture is byte `y` of the sequence. -/
@[simp] theorem bufByte_bufCapture (b : List Byte) (y : Nat) : bufByte (bufCapture b) y = b[y]? := by
  simpa [bufCapture_eq] using bufByte_zip_range' b 0 y

/-- A load from a capture within its length gives the bytes captured (R51). -/
theorem bufLoad_bufCapture {b : List Byte} {off n : Nat} (h : off + n ≤ b.length) :
    bufLoad (bufCapture b) off n = some ((b.drop off).take n) := by
  induction n generalizing off with
  | zero => simp [bufLoad]
  | succ n ih =>
    have hlt : off < b.length := by omega
    rw [bufLoad, ih (by omega), bufByte_bufCapture, List.getElem?_eq_getElem hlt, List.drop_eq_getElem_cons hlt]
    rfl

/-- A whole capture read back (R152, R156). -/
theorem bufLoad_bufCapture_all (b : List Byte) : bufLoad (bufCapture b) 0 b.length = some b := by
  simpa using bufLoad_bufCapture (b := b) (off := 0) (n := b.length) (by omega)

/-- A buffer that holds a value at every address of a range can be loaded over it, and the load has its
length. -/
theorem bufLoad_isSome {m : Memory} {off n : Nat} (h : ∀ a, off ≤ a → a < off + n → (bufByte m a).isSome) :
    ∃ b, bufLoad m off n = some b ∧ b.length = n := by
  induction n generalizing off with
  | zero => exact ⟨[], rfl, rfl⟩
  | succ n ih =>
    obtain ⟨b, hb, hl⟩ := ih (off := off + 1) fun a h1 h2 => h a (by omega) (by omega)
    obtain ⟨v, hv⟩ := Option.isSome_iff_exists.1 (h off (by omega) (by omega))
    exact ⟨v :: b, by simp [bufLoad, hv, hb], by simp [hl]⟩

/-- A load has the length asked for. -/
theorem bufLoad_length {m : Memory} {off n : Nat} {b : List Byte} (h : bufLoad m off n = some b) : b.length = n := by
  induction n generalizing off b with
  | zero => simp [bufLoad] at h; subst h; rfl
  | succ n ih =>
    simp only [bufLoad] at h
    split at h
    · rename_i v vs _ hvs
      cases h
      simp [ih hvs]
    · cases h

/-- A load over a range with a byte that holds no value gives none (R27). -/
theorem bufLoad_none {m : Memory} {off n x : Nat} (h1 : off ≤ x) (h2 : x < off + n) (h : bufByte m x = none) :
    bufLoad m off n = none := by
  induction n generalizing off with
  | zero => omega
  | succ n ih =>
    by_cases he : off = x
    · simp [bufLoad, he, h]
    · simp only [bufLoad, ih (off := off + 1) (by omega) (by omega)]
      split <;> simp_all

/-- A cell below a range has no part in a load over it. -/
theorem bufLoad_cons_below {c : Host.Cell} {m : Memory} {off n : Nat} (h : c.1 < off) :
    bufLoad (c :: m) off n = bufLoad m off n := by
  induction n generalizing off with
  | zero => rfl
  | succ n ih =>
    have hb : bufByte (c :: m) off = bufByte m off := by
      obtain ⟨a, v⟩ := c
      simp [bufByte, Nat.ne_of_lt h]
    simp [bufLoad, hb, ih (off := off + 1) (by omega)]

theorem eq_zip_of_bufLoad {m : Memory} {x n : Nat} {b : List Byte} (h : m.map Prod.fst = List.range' x n)
    (hb : bufLoad m x n = some b) : m = (List.range' x n).zip b := by
  induction n generalizing m x b with
  | zero => simpa using h
  | succ n ih =>
    rw [List.range'_succ] at h ⊢
    obtain ⟨c, rest, rfl, hc, hr⟩ := List.map_eq_cons_iff.1 h
    obtain ⟨a, v⟩ := c
    obtain rfl : a = x := hc
    simp only [bufLoad, bufByte, if_true, bufLoad_cons_below (m := rest) (c := (a, v)) (Nat.lt_succ_self a)] at hb
    split at hb
    · rename_i v' vs hv hvs
      cases hv
      cases hb
      rw [List.zip_cons_cons, ← ih hr hvs]
    · cases hb

/-- A buffer that holds values at 0 to `n - 1` and nothing else is the capture of what it holds. -/
theorem eq_bufCapture {m : Memory} {n : Nat} {b : List Byte} (h : m.map Prod.fst = List.range n)
    (hb : bufLoad m 0 n = some b) : m = bufCapture b := by
  rw [bufCapture_eq, bufLoad_length hb]
  exact eq_zip_of_bufLoad (by rw [h, List.range_eq_range']) hb

theorem bufByte_isSome_iff {m : Memory} {a : Nat} : (bufByte m a).isSome ↔ a ∈ m.map Prod.fst := by
  induction m with
  | nil => simp [bufByte]
  | cons c rest ih =>
    obtain ⟨x, v⟩ := c
    by_cases h : x = a
    · simp [bufByte, h]
    · simp [bufByte, h, ih, eq_comm (a := a) (b := x)]

end Sys2Proof.Machine
end

