-- ==== Sys2Proof/Laws/Codec.lean ====
section
/-! SUPPORT. The small lemmas of the codec: lengths of encoded fields, fields read at offsets, and the shape
of a byte sequence of at least a given length. -/

namespace Sys2Proof.Machine

/-- What fits the receive buffer (R53). -/
theorem fitsBuffer_iff (n : Nat) : Config.fitsBuffer n = true ↔ n ≤ Config.maxLen := by
  unfold Config.fitsBuffer Config.maxLenBound Config.maxLen
  rw [Bool.or_eq_true, decide_eq_true_eq, decide_eq_true_eq]
  omega

/-- `MAXLEN` is at least 1000 (R6). -/
theorem maxLen_ge : 1000 ≤ Config.maxLen := Nat.le_add_left 1000 Config.maxLenExtra

@[simp] theorem wire2Bytes_length (b : Wire2) : (wire2Bytes b).length = 2 := rfl
@[simp] theorem wire4Bytes_length (b : Wire4) : (wire4Bytes b).length = 4 := rfl
@[simp] theorem haBytes_length (a : HA) : (haBytes a).length = 6 := rfl
@[simp] theorem u16Bytes_length (v : U16) : (u16Bytes v).length = 2 := rfl
@[simp] theorem u32Bytes_length (v : U32) : (u32Bytes v).length = 4 := rfl

/-- An encoded ARP message has 28 bytes (R131). -/
@[simp] theorem encodeArp_length (m : ArpMessage) : (encodeArp m).length = 28 := rfl

/-- An encoded frame is 14 bytes longer than its payload (R121). -/
@[simp] theorem encodeEthernet_length (f : EthernetFrame) : (encodeEthernet f).length = 14 + f.payload.length := by
  simp [encodeEthernet]; omega

/-- Every frame the core transmits has 42 bytes (R7). -/
theorem wrapReply_length (m r : ArpMessage) (la : HA) : (encodeEthernet (wrapReply m r la)).length = 42 := by
  simp [wrapReply]

@[simp] theorem frameBytes_length (dst src : HA) (etype : U16) (p : List Byte) :
    (frameBytes dst src etype p).length = 14 + p.length := by
  simp [frameBytes]; omega

@[simp] theorem arpFixedBytes_length (oper : U16) : (arpFixedBytes oper).length = 8 := rfl

@[simp] theorem arpBytes_length (oper : U16) (sha : HA) (spa : PA) (tha : HA) (tpa : PA) :
    (arpBytes oper sha spa tha tpa).length = 28 := rfl

@[simp] theorem arpFrameBytes_length (dst src : HA) (oper : U16) (sha : HA) (spa : PA) (tha : HA) (tpa : PA)
    (tail : List Byte) : (arpFrameBytes dst src oper sha spa tha tpa tail).length = 42 + tail.length := by
  simp [arpFrameBytes]; omega

@[simp] theorem arpShortBytes_length (dst src : HA) (oper : U16) (rest : List Byte) :
    (arpShortBytes dst src oper rest).length = 22 + rest.length := by
  simp [arpShortBytes]; omega

@[simp] theorem byteAt_cons_zero (v : Byte) (b : List Byte) : byteAt (v :: b) 0 = v := rfl
@[simp] theorem byteAt_cons_succ (v : Byte) (b : List Byte) (i : Nat) : byteAt (v :: b) (i + 1) = byteAt b i := rfl

/-- A sequence of at least `n` bytes is `n` bytes and a rest. -/
theorem exists_prefix {b : List Byte} {n : Nat} (h : n ≤ b.length) : ∃ p r, b = p ++ r ∧ p.length = n :=
  ⟨b.take n, b.drop n, (List.take_append_drop n b).symm, by simp; omega⟩

/-- A sequence of at least 8 bytes, its first 8 written out. -/
theorem exists_eight {b : List Byte} (h : 8 ≤ b.length) :
    ∃ h0 h1 t0 t1 hl pl o0 o1 r, b = [h0, h1, t0, t1, hl, pl, o0, o1] ++ r := by
  obtain ⟨p, r, rfl, hp⟩ := exists_prefix h
  match p, hp with
  | [h0, h1, t0, t1, hl, pl, o0, o1], _ => exact ⟨h0, h1, t0, t1, hl, pl, o0, o1, r, rfl⟩

/-- A sequence of at least 14 bytes, its first 14 written out. -/
theorem exists_fourteen {b : List Byte} (h : 14 ≤ b.length) :
    ∃ d0 d1 d2 d3 d4 d5 s0 s1 s2 s3 s4 s5 e0 e1 r,
      b = [d0, d1, d2, d3, d4, d5, s0, s1, s2, s3, s4, s5, e0, e1] ++ r := by
  obtain ⟨p, r, rfl, hp⟩ := exists_prefix h
  match p, hp with
  | [d0, d1, d2, d3, d4, d5, s0, s1, s2, s3, s4, s5, e0, e1], _ =>
    exact ⟨d0, d1, d2, d3, d4, d5, s0, s1, s2, s3, s4, s5, e0, e1, r, rfl⟩

/-- A sequence of at least 20 bytes, its first 20 written out. -/
theorem exists_twenty {b : List Byte} (h : 20 ≤ b.length) :
    ∃ a0 a1 a2 a3 a4 a5 p0 p1 p2 p3 c0 c1 c2 c3 c4 c5 q0 q1 q2 q3 r,
      b = [a0, a1, a2, a3, a4, a5, p0, p1, p2, p3, c0, c1, c2, c3, c4, c5, q0, q1, q2, q3] ++ r := by
  obtain ⟨p, r, rfl, hp⟩ := exists_prefix h
  match p, hp with
  | [a0, a1, a2, a3, a4, a5, p0, p1, p2, p3, c0, c1, c2, c3, c4, c5, q0, q1, q2, q3], _ =>
    exact ⟨a0, a1, a2, a3, a4, a5, p0, p1, p2, p3, c0, c1, c2, c3, c4, c5, q0, q1, q2, q3, r, rfl⟩

/-- A sub-sequence within the length, byte by byte. -/
theorem drop_take_bytes (b : List Byte) (o n : Nat) (h : o + n ≤ b.length) :
    (b.drop o).take n = (List.range n).map fun i => byteAt b (o + i) := by
  apply List.ext_getElem
  · simp; omega
  · intro i h1 h2
    simp at h1 h2
    have : o + i < b.length := by omega
    simp [byteAt, List.getElem?_eq_getElem this]

/-! Numbers and their bytes. -/

theorem append_toNat {n m : Nat} (a : BitVec n) (b : BitVec m) : (a ++ b).toNat = 2 ^ m * a.toNat + b.toNat := by
  rw [BitVec.toNat_append, ← Nat.shiftLeft_add_eq_or_of_lt b.isLt, Nat.shiftLeft_eq, Nat.mul_comm]

/-- Two words cut at the same place are equal just when both parts are. -/
theorem append_inj_iff {n m : Nat} {a a' : BitVec n} {b b' : BitVec m} : a ++ b = a' ++ b' ↔ a = a' ∧ b = b' := by
  constructor
  · intro h
    have h := congrArg BitVec.toNat h
    rw [append_toNat, append_toNat] at h
    have hb : b.toNat = b'.toNat := by
      have := congrArg (· % 2 ^ m) h
      simpa [Nat.mul_add_mod, Nat.mod_eq_of_lt b.isLt, Nat.mod_eq_of_lt b'.isLt] using this
    have ha : a.toNat = a'.toNat := by
      rw [hb] at h
      exact Nat.eq_of_mul_eq_mul_left (Nat.two_pow_pos m) (by omega)
    exact ⟨BitVec.eq_of_toNat_eq ha, BitVec.eq_of_toNat_eq hb⟩
  · rintro ⟨rfl, rfl⟩
    rfl

/-- A mask applies to each part of a word. -/
theorem append_and_append {n m : Nat} {a a' : BitVec n} {b b' : BitVec m} :
    (a ++ b) &&& (a' ++ b') = (a &&& a') ++ (b &&& b') := by
  ext i hi
  simp [BitVec.getElem_append]
  try grind

/-- `NTOH16` puts the first byte above the second (R110). -/
theorem ntoh16_eq_append (b : Wire2) : ntoh16 b = b.b0 ++ b.b1 := by
  cases b
  simp only [ntoh16]
  ext i hi
  simp
  grind

/-- `NTOH32` puts the first byte on top (R111). -/
theorem ntoh32_eq_append (b : Wire4) : ntoh32 b = b.b0 ++ b.b1 ++ b.b2 ++ b.b3 := by
  cases b
  simp only [ntoh32]
  ext i hi
  simp
  grind

/-- A byte of a word, by division. -/
theorem extract_eq_ofNat {n : Nat} (v : BitVec n) (k : Nat) : v.extractLsb' k 8 = BitVec.ofNat 8 (v.toNat / 2 ^ k) := by
  apply BitVec.eq_of_toNat_eq
  simp [Nat.shiftRight_eq_div_pow]

/-- The parts of a 16-bit word. -/
theorem split_u16 (w : U16) : w = w.extractLsb' 8 8 ++ w.extractLsb' 0 8 := by
  ext i hi
  simp
  grind

/-- The parts of a 32-bit word. -/
theorem split_u32 (w : U32) :
    w = w.extractLsb' 24 8 ++ w.extractLsb' 16 8 ++ w.extractLsb' 8 8 ++ w.extractLsb' 0 8 := by
  ext i hi
  simp
  grind

/-! What each functional unit answers. -/

/-- `decodeEthernet` on a sequence that is too short (R120). -/
theorem decodeEthernet_short {b : List Byte} (h : b.length < 14) : decodeEthernet b = .raise .frameTooShort := by
  simp [decodeEthernet, Config.ethHdrLen, h]

/-- `decodeEthernet` on a header and a payload (R120). -/
theorem decodeEthernet_header (d0 d1 d2 d3 d4 d5 s0 s1 s2 s3 s4 s5 e0 e1 : Byte) (r : List Byte) :
    decodeEthernet ([d0, d1, d2, d3, d4, d5, s0, s1, s2, s3, s4, s5, e0, e1] ++ r) =
      .ok ⟨⟨d0, d1, d2, d3, d4, d5⟩, ⟨s0, s1, s2, s3, s4, s5⟩, ntoh16 ⟨e0, e1⟩, r⟩ := by
  have h : ¬([d0, d1, d2, d3, d4, d5, s0, s1, s2, s3, s4, s5, e0, e1] ++ r).length < Config.ethHdrLen := by
    simp [Config.ethHdrLen]
  rw [decodeEthernet, if_neg h]
  rfl

/-- `decodeArp` on a sequence without a whole fixed header (R130 step 1). -/
theorem decodeArp_short {p : List Byte} (h : p.length < 8) : decodeArp p = .raise .frameTooShort := by
  simp [decodeArp, Config.arpFixedLen, h]

/-- `decodeArp` fails in just two ways (R130). -/
theorem decodeArp_failure {p : List Byte} {e : Failure} (h : decodeArp p = .raise e) :
    e = .frameTooShort ∨ e = .unsupported := by
  unfold decodeArp at h
  split at h
  · cases h; exact .inl rfl
  · split at h
    · cases h; exact .inr rfl
    · split at h
      · cases h; exact .inl rfl
      · cases h

/-- The validity gate, field by field (R132). -/
theorem validArp_iff (m : ArpMessage) :
    validArp m = true ↔ m.htype = 1#16 ∧ m.ptype = 0x0800#16 ∧ m.hlen = 6#8 ∧ m.plen = 4#8 := by
  simp [validArp, Config.htypeEthernet, Config.ptypeIpv4, Config.hlenEthernet, Config.plenIpv4, and_assoc]

/-- Everything `handle` can answer (R140). -/
theorem handle_eq (m : ArpMessage) (la : HA) (lp : PA) :
    handle m la lp = if m.oper = 1#16 ∧ validArp m = true then .ok (replyTo m la) else .raise .noReply := by
  unfold handle
  by_cases h : m.oper = 1#16 <;> cases hv : validArp m <;> simp [h, Config.opRequest]

end Sys2Proof.Machine
end

