-- ==== Sys2Proof/Laws/State.lean ====
section
/-! SUPPORT. What each named update of State leaves in each field: one lemma per field per update, each
true by rfl, so that no proof unfolds a record update. -/

namespace Sys2Proof.Machine

variable (s : State)

/-! `setPhase`: `PHASE <- p` (R13). -/

@[simp] theorem setPhase_phase (p : Phase) : (setPhase p s).phase = p := rfl
@[simp] theorem setPhase_localHA (p : Phase) : (setPhase p s).localHA = s.localHA := rfl
@[simp] theorem setPhase_localPA (p : Phase) : (setPhase p s).localPA = s.localPA := rfl
@[simp] theorem setPhase_rxbuf (p : Phase) : (setPhase p s).rxbuf = s.rxbuf := rfl
@[simp] theorem setPhase_rxlen (p : Phase) : (setPhase p s).rxlen = s.rxlen := rfl
@[simp] theorem setPhase_eth (p : Phase) : (setPhase p s).eth = s.eth := rfl
@[simp] theorem setPhase_arp (p : Phase) : (setPhase p s).arp = s.arp := rfl
@[simp] theorem setPhase_rpl (p : Phase) : (setPhase p s).rpl = s.rpl := rfl
@[simp] theorem setPhase_txbuf (p : Phase) : (setPhase p s).txbuf = s.txbuf := rfl
@[simp] theorem setPhase_txlen (p : Phase) : (setPhase p s).txlen = s.txlen := rfl
@[simp] theorem setPhase_port (p : Phase) : (setPhase p s).port = s.port := rfl
@[simp] theorem setPhase_rxAnswers (p : Phase) : (setPhase p s).rxAnswers = s.rxAnswers := rfl
@[simp] theorem setPhase_wrAnswers (p : Phase) : (setPhase p s).wrAnswers = s.wrAnswers := rfl
@[simp] theorem setPhase_trace (p : Phase) : (setPhase p s).trace = s.trace := rfl
@[simp] theorem setPhase_ret (p : Phase) : (setPhase p s).ret = s.ret := rfl

/-! `record`: Something the environment sees (R164). -/

@[simp] theorem record_phase (e : Event) : (record e s).phase = s.phase := rfl
@[simp] theorem record_localHA (e : Event) : (record e s).localHA = s.localHA := rfl
@[simp] theorem record_localPA (e : Event) : (record e s).localPA = s.localPA := rfl
@[simp] theorem record_rxbuf (e : Event) : (record e s).rxbuf = s.rxbuf := rfl
@[simp] theorem record_rxlen (e : Event) : (record e s).rxlen = s.rxlen := rfl
@[simp] theorem record_eth (e : Event) : (record e s).eth = s.eth := rfl
@[simp] theorem record_arp (e : Event) : (record e s).arp = s.arp := rfl
@[simp] theorem record_rpl (e : Event) : (record e s).rpl = s.rpl := rfl
@[simp] theorem record_txbuf (e : Event) : (record e s).txbuf = s.txbuf := rfl
@[simp] theorem record_txlen (e : Event) : (record e s).txlen = s.txlen := rfl
@[simp] theorem record_port (e : Event) : (record e s).port = s.port := rfl
@[simp] theorem record_rxAnswers (e : Event) : (record e s).rxAnswers = s.rxAnswers := rfl
@[simp] theorem record_wrAnswers (e : Event) : (record e s).wrAnswers = s.wrAnswers := rfl
@[simp] theorem record_trace (e : Event) : (record e s).trace = s.trace ++ [e] := rfl
@[simp] theorem record_ret (e : Event) : (record e s).ret = s.ret := rfl

/-! `emit`: The outcome event (R181). -/

@[simp] theorem emit_phase (c : OutcomeCode) : (emit c s).phase = s.phase := rfl
@[simp] theorem emit_localHA (c : OutcomeCode) : (emit c s).localHA = s.localHA := rfl
@[simp] theorem emit_localPA (c : OutcomeCode) : (emit c s).localPA = s.localPA := rfl
@[simp] theorem emit_rxbuf (c : OutcomeCode) : (emit c s).rxbuf = s.rxbuf := rfl
@[simp] theorem emit_rxlen (c : OutcomeCode) : (emit c s).rxlen = s.rxlen := rfl
@[simp] theorem emit_eth (c : OutcomeCode) : (emit c s).eth = s.eth := rfl
@[simp] theorem emit_arp (c : OutcomeCode) : (emit c s).arp = s.arp := rfl
@[simp] theorem emit_rpl (c : OutcomeCode) : (emit c s).rpl = s.rpl := rfl
@[simp] theorem emit_txbuf (c : OutcomeCode) : (emit c s).txbuf = s.txbuf := rfl
@[simp] theorem emit_txlen (c : OutcomeCode) : (emit c s).txlen = s.txlen := rfl
@[simp] theorem emit_port (c : OutcomeCode) : (emit c s).port = s.port := rfl
@[simp] theorem emit_rxAnswers (c : OutcomeCode) : (emit c s).rxAnswers = s.rxAnswers := rfl
@[simp] theorem emit_wrAnswers (c : OutcomeCode) : (emit c s).wrAnswers = s.wrAnswers := rfl
@[simp] theorem emit_trace (c : OutcomeCode) : (emit c s).trace = s.trace ++ [.outcome c] := rfl
@[simp] theorem emit_ret (c : OutcomeCode) : (emit c s).ret = s.ret := rfl

/-! `discardWorking`: Every working register loses its value (R28). -/

@[simp] theorem discardWorking_phase : (discardWorking s).phase = s.phase := rfl
@[simp] theorem discardWorking_localHA : (discardWorking s).localHA = s.localHA := rfl
@[simp] theorem discardWorking_localPA : (discardWorking s).localPA = s.localPA := rfl
@[simp] theorem discardWorking_rxbuf : (discardWorking s).rxbuf = [] := rfl
@[simp] theorem discardWorking_rxlen : (discardWorking s).rxlen = none := rfl
@[simp] theorem discardWorking_eth : (discardWorking s).eth = none := rfl
@[simp] theorem discardWorking_arp : (discardWorking s).arp = none := rfl
@[simp] theorem discardWorking_rpl : (discardWorking s).rpl = none := rfl
@[simp] theorem discardWorking_txbuf : (discardWorking s).txbuf = [] := rfl
@[simp] theorem discardWorking_txlen : (discardWorking s).txlen = none := rfl
@[simp] theorem discardWorking_port : (discardWorking s).port = s.port := rfl
@[simp] theorem discardWorking_rxAnswers : (discardWorking s).rxAnswers = s.rxAnswers := rfl
@[simp] theorem discardWorking_wrAnswers : (discardWorking s).wrAnswers = s.wrAnswers := rfl
@[simp] theorem discardWorking_trace : (discardWorking s).trace = s.trace := rfl
@[simp] theorem discardWorking_ret : (discardWorking s).ret = s.ret := rfl

/-! `enterReadFrame`: The return to `ReadFrame` (R187). -/

@[simp] theorem enterReadFrame_phase : (enterReadFrame s).phase = .readFrame := rfl
@[simp] theorem enterReadFrame_localHA : (enterReadFrame s).localHA = s.localHA := rfl
@[simp] theorem enterReadFrame_localPA : (enterReadFrame s).localPA = s.localPA := rfl
@[simp] theorem enterReadFrame_rxbuf : (enterReadFrame s).rxbuf = [] := rfl
@[simp] theorem enterReadFrame_rxlen : (enterReadFrame s).rxlen = none := rfl
@[simp] theorem enterReadFrame_eth : (enterReadFrame s).eth = none := rfl
@[simp] theorem enterReadFrame_arp : (enterReadFrame s).arp = none := rfl
@[simp] theorem enterReadFrame_rpl : (enterReadFrame s).rpl = none := rfl
@[simp] theorem enterReadFrame_txbuf : (enterReadFrame s).txbuf = [] := rfl
@[simp] theorem enterReadFrame_txlen : (enterReadFrame s).txlen = none := rfl
@[simp] theorem enterReadFrame_port : (enterReadFrame s).port = s.port := rfl
@[simp] theorem enterReadFrame_rxAnswers : (enterReadFrame s).rxAnswers = s.rxAnswers := rfl
@[simp] theorem enterReadFrame_wrAnswers : (enterReadFrame s).wrAnswers = s.wrAnswers := rfl
@[simp] theorem enterReadFrame_trace : (enterReadFrame s).trace = s.trace := rfl
@[simp] theorem enterReadFrame_ret : (enterReadFrame s).ret = s.ret := rfl

/-! `endCycle`: The end of a cycle (R183). -/

@[simp] theorem endCycle_phase (c : OutcomeCode) : (endCycle c s).phase = .readFrame := rfl
@[simp] theorem endCycle_localHA (c : OutcomeCode) : (endCycle c s).localHA = s.localHA := rfl
@[simp] theorem endCycle_localPA (c : OutcomeCode) : (endCycle c s).localPA = s.localPA := rfl
@[simp] theorem endCycle_rxbuf (c : OutcomeCode) : (endCycle c s).rxbuf = [] := rfl
@[simp] theorem endCycle_rxlen (c : OutcomeCode) : (endCycle c s).rxlen = none := rfl
@[simp] theorem endCycle_eth (c : OutcomeCode) : (endCycle c s).eth = none := rfl
@[simp] theorem endCycle_arp (c : OutcomeCode) : (endCycle c s).arp = none := rfl
@[simp] theorem endCycle_rpl (c : OutcomeCode) : (endCycle c s).rpl = none := rfl
@[simp] theorem endCycle_txbuf (c : OutcomeCode) : (endCycle c s).txbuf = [] := rfl
@[simp] theorem endCycle_txlen (c : OutcomeCode) : (endCycle c s).txlen = none := rfl
@[simp] theorem endCycle_port (c : OutcomeCode) : (endCycle c s).port = s.port := rfl
@[simp] theorem endCycle_rxAnswers (c : OutcomeCode) : (endCycle c s).rxAnswers = s.rxAnswers := rfl
@[simp] theorem endCycle_wrAnswers (c : OutcomeCode) : (endCycle c s).wrAnswers = s.wrAnswers := rfl
@[simp] theorem endCycle_trace (c : OutcomeCode) : (endCycle c s).trace = s.trace ++ [.outcome c] := rfl
@[simp] theorem endCycle_ret (c : OutcomeCode) : (endCycle c s).ret = s.ret := rfl

/-! `halt`: The fatal read failure (R185). -/

@[simp] theorem halt_phase : (halt s).phase = .halted := rfl
@[simp] theorem halt_localHA : (halt s).localHA = s.localHA := rfl
@[simp] theorem halt_localPA : (halt s).localPA = s.localPA := rfl
@[simp] theorem halt_rxbuf : (halt s).rxbuf = [] := rfl
@[simp] theorem halt_rxlen : (halt s).rxlen = none := rfl
@[simp] theorem halt_eth : (halt s).eth = none := rfl
@[simp] theorem halt_arp : (halt s).arp = none := rfl
@[simp] theorem halt_rpl : (halt s).rpl = none := rfl
@[simp] theorem halt_txbuf : (halt s).txbuf = [] := rfl
@[simp] theorem halt_txlen : (halt s).txlen = none := rfl
@[simp] theorem halt_port : (halt s).port = s.port := rfl
@[simp] theorem halt_rxAnswers : (halt s).rxAnswers = s.rxAnswers := rfl
@[simp] theorem halt_wrAnswers : (halt s).wrAnswers = s.wrAnswers := rfl
@[simp] theorem halt_trace : (halt s).trace = s.trace ++ [.outcome .readFailed] := rfl
@[simp] theorem halt_ret : (halt s).ret = s.ret := rfl

/-! `captureFrame`: The capture of a frame (R59, R151). -/

@[simp] theorem captureFrame_phase (b : List Byte) : (captureFrame b s).phase = s.phase := rfl
@[simp] theorem captureFrame_localHA (b : List Byte) : (captureFrame b s).localHA = s.localHA := rfl
@[simp] theorem captureFrame_localPA (b : List Byte) : (captureFrame b s).localPA = s.localPA := rfl
@[simp] theorem captureFrame_rxbuf (b : List Byte) : (captureFrame b s).rxbuf = bufCapture b := rfl
@[simp] theorem captureFrame_rxlen (b : List Byte) : (captureFrame b s).rxlen = some b.length := rfl
@[simp] theorem captureFrame_eth (b : List Byte) : (captureFrame b s).eth = s.eth := rfl
@[simp] theorem captureFrame_arp (b : List Byte) : (captureFrame b s).arp = s.arp := rfl
@[simp] theorem captureFrame_rpl (b : List Byte) : (captureFrame b s).rpl = s.rpl := rfl
@[simp] theorem captureFrame_txbuf (b : List Byte) : (captureFrame b s).txbuf = s.txbuf := rfl
@[simp] theorem captureFrame_txlen (b : List Byte) : (captureFrame b s).txlen = s.txlen := rfl
@[simp] theorem captureFrame_port (b : List Byte) : (captureFrame b s).port = s.port := rfl
@[simp] theorem captureFrame_rxAnswers (b : List Byte) : (captureFrame b s).rxAnswers = s.rxAnswers := rfl
@[simp] theorem captureFrame_wrAnswers (b : List Byte) : (captureFrame b s).wrAnswers = s.wrAnswers := rfl
@[simp] theorem captureFrame_trace (b : List Byte) : (captureFrame b s).trace = s.trace := rfl
@[simp] theorem captureFrame_ret (b : List Byte) : (captureFrame b s).ret = s.ret := rfl

/-! `loadTx`: The transmit buffer is loaded (R156). -/

@[simp] theorem loadTx_phase (b : List Byte) : (loadTx b s).phase = s.phase := rfl
@[simp] theorem loadTx_localHA (b : List Byte) : (loadTx b s).localHA = s.localHA := rfl
@[simp] theorem loadTx_localPA (b : List Byte) : (loadTx b s).localPA = s.localPA := rfl
@[simp] theorem loadTx_rxbuf (b : List Byte) : (loadTx b s).rxbuf = s.rxbuf := rfl
@[simp] theorem loadTx_rxlen (b : List Byte) : (loadTx b s).rxlen = s.rxlen := rfl
@[simp] theorem loadTx_eth (b : List Byte) : (loadTx b s).eth = s.eth := rfl
@[simp] theorem loadTx_arp (b : List Byte) : (loadTx b s).arp = s.arp := rfl
@[simp] theorem loadTx_rpl (b : List Byte) : (loadTx b s).rpl = s.rpl := rfl
@[simp] theorem loadTx_txbuf (b : List Byte) : (loadTx b s).txbuf = bufCapture b := rfl
@[simp] theorem loadTx_txlen (b : List Byte) : (loadTx b s).txlen = some Config.txFrameLen := rfl
@[simp] theorem loadTx_port (b : List Byte) : (loadTx b s).port = s.port := rfl
@[simp] theorem loadTx_rxAnswers (b : List Byte) : (loadTx b s).rxAnswers = s.rxAnswers := rfl
@[simp] theorem loadTx_wrAnswers (b : List Byte) : (loadTx b s).wrAnswers = s.wrAnswers := rfl
@[simp] theorem loadTx_trace (b : List Byte) : (loadTx b s).trace = s.trace := rfl
@[simp] theorem loadTx_ret (b : List Byte) : (loadTx b s).ret = s.ret := rfl

/-! `answerRead`: The device answers a read (R161). -/

@[simp] theorem answerRead_phase (a : ReadAnswer) (rest : List ReadAnswer) : (answerRead a rest s).phase = s.phase := rfl
@[simp] theorem answerRead_localHA (a : ReadAnswer) (rest : List ReadAnswer) : (answerRead a rest s).localHA = s.localHA := rfl
@[simp] theorem answerRead_localPA (a : ReadAnswer) (rest : List ReadAnswer) : (answerRead a rest s).localPA = s.localPA := rfl
@[simp] theorem answerRead_rxbuf (a : ReadAnswer) (rest : List ReadAnswer) : (answerRead a rest s).rxbuf = s.rxbuf := rfl
@[simp] theorem answerRead_rxlen (a : ReadAnswer) (rest : List ReadAnswer) : (answerRead a rest s).rxlen = s.rxlen := rfl
@[simp] theorem answerRead_eth (a : ReadAnswer) (rest : List ReadAnswer) : (answerRead a rest s).eth = s.eth := rfl
@[simp] theorem answerRead_arp (a : ReadAnswer) (rest : List ReadAnswer) : (answerRead a rest s).arp = s.arp := rfl
@[simp] theorem answerRead_rpl (a : ReadAnswer) (rest : List ReadAnswer) : (answerRead a rest s).rpl = s.rpl := rfl
@[simp] theorem answerRead_txbuf (a : ReadAnswer) (rest : List ReadAnswer) : (answerRead a rest s).txbuf = s.txbuf := rfl
@[simp] theorem answerRead_txlen (a : ReadAnswer) (rest : List ReadAnswer) : (answerRead a rest s).txlen = s.txlen := rfl
@[simp] theorem answerRead_port (a : ReadAnswer) (rest : List ReadAnswer) : (answerRead a rest s).port = .idle := rfl
@[simp] theorem answerRead_rxAnswers (a : ReadAnswer) (rest : List ReadAnswer) : (answerRead a rest s).rxAnswers = rest := rfl
@[simp] theorem answerRead_wrAnswers (a : ReadAnswer) (rest : List ReadAnswer) : (answerRead a rest s).wrAnswers = s.wrAnswers := rfl
@[simp] theorem answerRead_trace (a : ReadAnswer) (rest : List ReadAnswer) : (answerRead a rest s).trace = s.trace ++ [.readAnswered a] := rfl
@[simp] theorem answerRead_ret (a : ReadAnswer) (rest : List ReadAnswer) : (answerRead a rest s).ret = s.ret := rfl

/-! `answerWrite`: The device answers a write (R162). -/

@[simp] theorem answerWrite_phase (a : WriteAnswer) (rest : List WriteAnswer) : (answerWrite a rest s).phase = s.phase := rfl
@[simp] theorem answerWrite_localHA (a : WriteAnswer) (rest : List WriteAnswer) : (answerWrite a rest s).localHA = s.localHA := rfl
@[simp] theorem answerWrite_localPA (a : WriteAnswer) (rest : List WriteAnswer) : (answerWrite a rest s).localPA = s.localPA := rfl
@[simp] theorem answerWrite_rxbuf (a : WriteAnswer) (rest : List WriteAnswer) : (answerWrite a rest s).rxbuf = s.rxbuf := rfl
@[simp] theorem answerWrite_rxlen (a : WriteAnswer) (rest : List WriteAnswer) : (answerWrite a rest s).rxlen = s.rxlen := rfl
@[simp] theorem answerWrite_eth (a : WriteAnswer) (rest : List WriteAnswer) : (answerWrite a rest s).eth = s.eth := rfl
@[simp] theorem answerWrite_arp (a : WriteAnswer) (rest : List WriteAnswer) : (answerWrite a rest s).arp = s.arp := rfl
@[simp] theorem answerWrite_rpl (a : WriteAnswer) (rest : List WriteAnswer) : (answerWrite a rest s).rpl = s.rpl := rfl
@[simp] theorem answerWrite_txbuf (a : WriteAnswer) (rest : List WriteAnswer) : (answerWrite a rest s).txbuf = s.txbuf := rfl
@[simp] theorem answerWrite_txlen (a : WriteAnswer) (rest : List WriteAnswer) : (answerWrite a rest s).txlen = s.txlen := rfl
@[simp] theorem answerWrite_port (a : WriteAnswer) (rest : List WriteAnswer) : (answerWrite a rest s).port = .idle := rfl
@[simp] theorem answerWrite_rxAnswers (a : WriteAnswer) (rest : List WriteAnswer) : (answerWrite a rest s).rxAnswers = s.rxAnswers := rfl
@[simp] theorem answerWrite_wrAnswers (a : WriteAnswer) (rest : List WriteAnswer) : (answerWrite a rest s).wrAnswers = rest := rfl
@[simp] theorem answerWrite_trace (a : WriteAnswer) (rest : List WriteAnswer) : (answerWrite a rest s).trace = s.trace ++ [.writeAnswered a] := rfl
@[simp] theorem answerWrite_ret (a : WriteAnswer) (rest : List WriteAnswer) : (answerWrite a rest s).ret = s.ret := rfl

/-! `setEth`: `ETH` is written (R152). -/

@[simp] theorem setEth_phase (f : EthernetFrame) : (setEth f s).phase = s.phase := rfl
@[simp] theorem setEth_localHA (f : EthernetFrame) : (setEth f s).localHA = s.localHA := rfl
@[simp] theorem setEth_localPA (f : EthernetFrame) : (setEth f s).localPA = s.localPA := rfl
@[simp] theorem setEth_rxbuf (f : EthernetFrame) : (setEth f s).rxbuf = s.rxbuf := rfl
@[simp] theorem setEth_rxlen (f : EthernetFrame) : (setEth f s).rxlen = s.rxlen := rfl
@[simp] theorem setEth_eth (f : EthernetFrame) : (setEth f s).eth = some f := rfl
@[simp] theorem setEth_arp (f : EthernetFrame) : (setEth f s).arp = s.arp := rfl
@[simp] theorem setEth_rpl (f : EthernetFrame) : (setEth f s).rpl = s.rpl := rfl
@[simp] theorem setEth_txbuf (f : EthernetFrame) : (setEth f s).txbuf = s.txbuf := rfl
@[simp] theorem setEth_txlen (f : EthernetFrame) : (setEth f s).txlen = s.txlen := rfl
@[simp] theorem setEth_port (f : EthernetFrame) : (setEth f s).port = s.port := rfl
@[simp] theorem setEth_rxAnswers (f : EthernetFrame) : (setEth f s).rxAnswers = s.rxAnswers := rfl
@[simp] theorem setEth_wrAnswers (f : EthernetFrame) : (setEth f s).wrAnswers = s.wrAnswers := rfl
@[simp] theorem setEth_trace (f : EthernetFrame) : (setEth f s).trace = s.trace := rfl
@[simp] theorem setEth_ret (f : EthernetFrame) : (setEth f s).ret = s.ret := rfl

/-! `setArp`: `ARP` is written (R154). -/

@[simp] theorem setArp_phase (m : ArpMessage) : (setArp m s).phase = s.phase := rfl
@[simp] theorem setArp_localHA (m : ArpMessage) : (setArp m s).localHA = s.localHA := rfl
@[simp] theorem setArp_localPA (m : ArpMessage) : (setArp m s).localPA = s.localPA := rfl
@[simp] theorem setArp_rxbuf (m : ArpMessage) : (setArp m s).rxbuf = s.rxbuf := rfl
@[simp] theorem setArp_rxlen (m : ArpMessage) : (setArp m s).rxlen = s.rxlen := rfl
@[simp] theorem setArp_eth (m : ArpMessage) : (setArp m s).eth = s.eth := rfl
@[simp] theorem setArp_arp (m : ArpMessage) : (setArp m s).arp = some m := rfl
@[simp] theorem setArp_rpl (m : ArpMessage) : (setArp m s).rpl = s.rpl := rfl
@[simp] theorem setArp_txbuf (m : ArpMessage) : (setArp m s).txbuf = s.txbuf := rfl
@[simp] theorem setArp_txlen (m : ArpMessage) : (setArp m s).txlen = s.txlen := rfl
@[simp] theorem setArp_port (m : ArpMessage) : (setArp m s).port = s.port := rfl
@[simp] theorem setArp_rxAnswers (m : ArpMessage) : (setArp m s).rxAnswers = s.rxAnswers := rfl
@[simp] theorem setArp_wrAnswers (m : ArpMessage) : (setArp m s).wrAnswers = s.wrAnswers := rfl
@[simp] theorem setArp_trace (m : ArpMessage) : (setArp m s).trace = s.trace := rfl
@[simp] theorem setArp_ret (m : ArpMessage) : (setArp m s).ret = s.ret := rfl

/-! `setRpl`: `RPL` is written (R155). -/

@[simp] theorem setRpl_phase (m : ArpMessage) : (setRpl m s).phase = s.phase := rfl
@[simp] theorem setRpl_localHA (m : ArpMessage) : (setRpl m s).localHA = s.localHA := rfl
@[simp] theorem setRpl_localPA (m : ArpMessage) : (setRpl m s).localPA = s.localPA := rfl
@[simp] theorem setRpl_rxbuf (m : ArpMessage) : (setRpl m s).rxbuf = s.rxbuf := rfl
@[simp] theorem setRpl_rxlen (m : ArpMessage) : (setRpl m s).rxlen = s.rxlen := rfl
@[simp] theorem setRpl_eth (m : ArpMessage) : (setRpl m s).eth = s.eth := rfl
@[simp] theorem setRpl_arp (m : ArpMessage) : (setRpl m s).arp = s.arp := rfl
@[simp] theorem setRpl_rpl (m : ArpMessage) : (setRpl m s).rpl = some m := rfl
@[simp] theorem setRpl_txbuf (m : ArpMessage) : (setRpl m s).txbuf = s.txbuf := rfl
@[simp] theorem setRpl_txlen (m : ArpMessage) : (setRpl m s).txlen = s.txlen := rfl
@[simp] theorem setRpl_port (m : ArpMessage) : (setRpl m s).port = s.port := rfl
@[simp] theorem setRpl_rxAnswers (m : ArpMessage) : (setRpl m s).rxAnswers = s.rxAnswers := rfl
@[simp] theorem setRpl_wrAnswers (m : ArpMessage) : (setRpl m s).wrAnswers = s.wrAnswers := rfl
@[simp] theorem setRpl_trace (m : ArpMessage) : (setRpl m s).trace = s.trace := rfl
@[simp] theorem setRpl_ret (m : ArpMessage) : (setRpl m s).ret = s.ret := rfl

/-! `setRet`: An operation returns (R11). -/

@[simp] theorem setRet_phase (r : Tagged Value) : (setRet r s).phase = s.phase := rfl
@[simp] theorem setRet_localHA (r : Tagged Value) : (setRet r s).localHA = s.localHA := rfl
@[simp] theorem setRet_localPA (r : Tagged Value) : (setRet r s).localPA = s.localPA := rfl
@[simp] theorem setRet_rxbuf (r : Tagged Value) : (setRet r s).rxbuf = s.rxbuf := rfl
@[simp] theorem setRet_rxlen (r : Tagged Value) : (setRet r s).rxlen = s.rxlen := rfl
@[simp] theorem setRet_eth (r : Tagged Value) : (setRet r s).eth = s.eth := rfl
@[simp] theorem setRet_arp (r : Tagged Value) : (setRet r s).arp = s.arp := rfl
@[simp] theorem setRet_rpl (r : Tagged Value) : (setRet r s).rpl = s.rpl := rfl
@[simp] theorem setRet_txbuf (r : Tagged Value) : (setRet r s).txbuf = s.txbuf := rfl
@[simp] theorem setRet_txlen (r : Tagged Value) : (setRet r s).txlen = s.txlen := rfl
@[simp] theorem setRet_port (r : Tagged Value) : (setRet r s).port = s.port := rfl
@[simp] theorem setRet_rxAnswers (r : Tagged Value) : (setRet r s).rxAnswers = s.rxAnswers := rfl
@[simp] theorem setRet_wrAnswers (r : Tagged Value) : (setRet r s).wrAnswers = s.wrAnswers := rfl
@[simp] theorem setRet_trace (r : Tagged Value) : (setRet r s).trace = s.trace := rfl
@[simp] theorem setRet_ret (r : Tagged Value) : (setRet r s).ret = some r := rfl

/-! `startRead`: A read goes out (R161). -/

@[simp] theorem startRead_phase (n : Nat) : (startRead n s).phase = s.phase := rfl
@[simp] theorem startRead_localHA (n : Nat) : (startRead n s).localHA = s.localHA := rfl
@[simp] theorem startRead_localPA (n : Nat) : (startRead n s).localPA = s.localPA := rfl
@[simp] theorem startRead_rxbuf (n : Nat) : (startRead n s).rxbuf = s.rxbuf := rfl
@[simp] theorem startRead_rxlen (n : Nat) : (startRead n s).rxlen = s.rxlen := rfl
@[simp] theorem startRead_eth (n : Nat) : (startRead n s).eth = s.eth := rfl
@[simp] theorem startRead_arp (n : Nat) : (startRead n s).arp = s.arp := rfl
@[simp] theorem startRead_rpl (n : Nat) : (startRead n s).rpl = s.rpl := rfl
@[simp] theorem startRead_txbuf (n : Nat) : (startRead n s).txbuf = s.txbuf := rfl
@[simp] theorem startRead_txlen (n : Nat) : (startRead n s).txlen = s.txlen := rfl
@[simp] theorem startRead_port (n : Nat) : (startRead n s).port = .reading := rfl
@[simp] theorem startRead_rxAnswers (n : Nat) : (startRead n s).rxAnswers = s.rxAnswers := rfl
@[simp] theorem startRead_wrAnswers (n : Nat) : (startRead n s).wrAnswers = s.wrAnswers := rfl
@[simp] theorem startRead_trace (n : Nat) : (startRead n s).trace = s.trace ++ [.readIssued n] := rfl
@[simp] theorem startRead_ret (n : Nat) : (startRead n s).ret = s.ret := rfl

/-! `startWrite`: A write goes out (R162). -/

@[simp] theorem startWrite_phase (b : List Byte) : (startWrite b s).phase = s.phase := rfl
@[simp] theorem startWrite_localHA (b : List Byte) : (startWrite b s).localHA = s.localHA := rfl
@[simp] theorem startWrite_localPA (b : List Byte) : (startWrite b s).localPA = s.localPA := rfl
@[simp] theorem startWrite_rxbuf (b : List Byte) : (startWrite b s).rxbuf = s.rxbuf := rfl
@[simp] theorem startWrite_rxlen (b : List Byte) : (startWrite b s).rxlen = s.rxlen := rfl
@[simp] theorem startWrite_eth (b : List Byte) : (startWrite b s).eth = s.eth := rfl
@[simp] theorem startWrite_arp (b : List Byte) : (startWrite b s).arp = s.arp := rfl
@[simp] theorem startWrite_rpl (b : List Byte) : (startWrite b s).rpl = s.rpl := rfl
@[simp] theorem startWrite_txbuf (b : List Byte) : (startWrite b s).txbuf = s.txbuf := rfl
@[simp] theorem startWrite_txlen (b : List Byte) : (startWrite b s).txlen = s.txlen := rfl
@[simp] theorem startWrite_port (b : List Byte) : (startWrite b s).port = .writing b := rfl
@[simp] theorem startWrite_rxAnswers (b : List Byte) : (startWrite b s).rxAnswers = s.rxAnswers := rfl
@[simp] theorem startWrite_wrAnswers (b : List Byte) : (startWrite b s).wrAnswers = s.wrAnswers := rfl
@[simp] theorem startWrite_trace (b : List Byte) : (startWrite b s).trace = s.trace ++ [.writeIssued b] := rfl
@[simp] theorem startWrite_ret (b : List Byte) : (startWrite b s).ret = s.ret := rfl

/-! `deliver`: The device's next answers (R161, R162). -/

@[simp] theorem deliver_phase (rx : List ReadAnswer) (wr : List WriteAnswer) : (deliver rx wr s).phase = s.phase := rfl
@[simp] theorem deliver_localHA (rx : List ReadAnswer) (wr : List WriteAnswer) : (deliver rx wr s).localHA = s.localHA := rfl
@[simp] theorem deliver_localPA (rx : List ReadAnswer) (wr : List WriteAnswer) : (deliver rx wr s).localPA = s.localPA := rfl
@[simp] theorem deliver_rxbuf (rx : List ReadAnswer) (wr : List WriteAnswer) : (deliver rx wr s).rxbuf = s.rxbuf := rfl
@[simp] theorem deliver_rxlen (rx : List ReadAnswer) (wr : List WriteAnswer) : (deliver rx wr s).rxlen = s.rxlen := rfl
@[simp] theorem deliver_eth (rx : List ReadAnswer) (wr : List WriteAnswer) : (deliver rx wr s).eth = s.eth := rfl
@[simp] theorem deliver_arp (rx : List ReadAnswer) (wr : List WriteAnswer) : (deliver rx wr s).arp = s.arp := rfl
@[simp] theorem deliver_rpl (rx : List ReadAnswer) (wr : List WriteAnswer) : (deliver rx wr s).rpl = s.rpl := rfl
@[simp] theorem deliver_txbuf (rx : List ReadAnswer) (wr : List WriteAnswer) : (deliver rx wr s).txbuf = s.txbuf := rfl
@[simp] theorem deliver_txlen (rx : List ReadAnswer) (wr : List WriteAnswer) : (deliver rx wr s).txlen = s.txlen := rfl
@[simp] theorem deliver_port (rx : List ReadAnswer) (wr : List WriteAnswer) : (deliver rx wr s).port = s.port := rfl
@[simp] theorem deliver_rxAnswers (rx : List ReadAnswer) (wr : List WriteAnswer) : (deliver rx wr s).rxAnswers = s.rxAnswers ++ rx := rfl
@[simp] theorem deliver_wrAnswers (rx : List ReadAnswer) (wr : List WriteAnswer) : (deliver rx wr s).wrAnswers = s.wrAnswers ++ wr := rfl
@[simp] theorem deliver_trace (rx : List ReadAnswer) (wr : List WriteAnswer) : (deliver rx wr s).trace = s.trace := rfl
@[simp] theorem deliver_ret (rx : List ReadAnswer) (wr : List WriteAnswer) : (deliver rx wr s).ret = s.ret := rfl

/-! `presentFrame`: The device is about to deliver a frame (R89). -/

@[simp] theorem presentFrame_phase (b : List Byte) : (presentFrame b s).phase = .readFrame := rfl
@[simp] theorem presentFrame_localHA (b : List Byte) : (presentFrame b s).localHA = s.localHA := rfl
@[simp] theorem presentFrame_localPA (b : List Byte) : (presentFrame b s).localPA = s.localPA := rfl
@[simp] theorem presentFrame_rxbuf (b : List Byte) : (presentFrame b s).rxbuf = s.rxbuf := rfl
@[simp] theorem presentFrame_rxlen (b : List Byte) : (presentFrame b s).rxlen = s.rxlen := rfl
@[simp] theorem presentFrame_eth (b : List Byte) : (presentFrame b s).eth = s.eth := rfl
@[simp] theorem presentFrame_arp (b : List Byte) : (presentFrame b s).arp = s.arp := rfl
@[simp] theorem presentFrame_rpl (b : List Byte) : (presentFrame b s).rpl = s.rpl := rfl
@[simp] theorem presentFrame_txbuf (b : List Byte) : (presentFrame b s).txbuf = s.txbuf := rfl
@[simp] theorem presentFrame_txlen (b : List Byte) : (presentFrame b s).txlen = s.txlen := rfl
@[simp] theorem presentFrame_port (b : List Byte) : (presentFrame b s).port = .idle := rfl
@[simp] theorem presentFrame_rxAnswers (b : List Byte) : (presentFrame b s).rxAnswers = .frame b :: s.rxAnswers := rfl
@[simp] theorem presentFrame_wrAnswers (b : List Byte) : (presentFrame b s).wrAnswers = s.wrAnswers := rfl
@[simp] theorem presentFrame_trace (b : List Byte) : (presentFrame b s).trace = s.trace := rfl
@[simp] theorem presentFrame_ret (b : List Byte) : (presentFrame b s).ret = s.ret := rfl

/-! `hostReset`: the environment's reset (R210). -/

@[simp] theorem hostReset_phase (la : HA) (lp : PA) (rx : List ReadAnswer) (wr : List WriteAnswer) : (hostReset la lp rx wr s).phase = .readFrame := rfl
@[simp] theorem hostReset_localHA (la : HA) (lp : PA) (rx : List ReadAnswer) (wr : List WriteAnswer) : (hostReset la lp rx wr s).localHA = la := rfl
@[simp] theorem hostReset_localPA (la : HA) (lp : PA) (rx : List ReadAnswer) (wr : List WriteAnswer) : (hostReset la lp rx wr s).localPA = lp := rfl
@[simp] theorem hostReset_rxbuf (la : HA) (lp : PA) (rx : List ReadAnswer) (wr : List WriteAnswer) : (hostReset la lp rx wr s).rxbuf = [] := rfl
@[simp] theorem hostReset_rxlen (la : HA) (lp : PA) (rx : List ReadAnswer) (wr : List WriteAnswer) : (hostReset la lp rx wr s).rxlen = none := rfl
@[simp] theorem hostReset_eth (la : HA) (lp : PA) (rx : List ReadAnswer) (wr : List WriteAnswer) : (hostReset la lp rx wr s).eth = none := rfl
@[simp] theorem hostReset_arp (la : HA) (lp : PA) (rx : List ReadAnswer) (wr : List WriteAnswer) : (hostReset la lp rx wr s).arp = none := rfl
@[simp] theorem hostReset_rpl (la : HA) (lp : PA) (rx : List ReadAnswer) (wr : List WriteAnswer) : (hostReset la lp rx wr s).rpl = none := rfl
@[simp] theorem hostReset_txbuf (la : HA) (lp : PA) (rx : List ReadAnswer) (wr : List WriteAnswer) : (hostReset la lp rx wr s).txbuf = [] := rfl
@[simp] theorem hostReset_txlen (la : HA) (lp : PA) (rx : List ReadAnswer) (wr : List WriteAnswer) : (hostReset la lp rx wr s).txlen = none := rfl
@[simp] theorem hostReset_port (la : HA) (lp : PA) (rx : List ReadAnswer) (wr : List WriteAnswer) : (hostReset la lp rx wr s).port = .idle := rfl
@[simp] theorem hostReset_rxAnswers (la : HA) (lp : PA) (rx : List ReadAnswer) (wr : List WriteAnswer) : (hostReset la lp rx wr s).rxAnswers = rx := rfl
@[simp] theorem hostReset_wrAnswers (la : HA) (lp : PA) (rx : List ReadAnswer) (wr : List WriteAnswer) : (hostReset la lp rx wr s).wrAnswers = wr := rfl
@[simp] theorem hostReset_trace (la : HA) (lp : PA) (rx : List ReadAnswer) (wr : List WriteAnswer) : (hostReset la lp rx wr s).trace = s.trace := rfl
@[simp] theorem hostReset_ret (la : HA) (lp : PA) (rx : List ReadAnswer) (wr : List WriteAnswer) : (hostReset la lp rx wr s).ret = none := rfl

end Sys2Proof.Machine
end

