-- ==== Sys2Proof/Laws/Ops.lean ====
section
/-! SUPPORT. What the shared operations do: for each, the lemmas that say everything it can answer, so that no
later proof unfolds it. -/

namespace Sys2Proof.Machine

@[simp] theorem andThen_next (s : State) (k : State → Out) : andThen (.next s) k = k s := rfl
@[simp] theorem andThen_fault (f : Fault) (k : State → Out) : andThen (.fault f) k = .fault f := rfl
@[simp] theorem andThen_refused (r : Refusal) (k : State → Out) : andThen (.refused r) k = .refused r := rfl

/-- If a sequence of two answers a next state, the first did, and the second from there (inversion). -/
theorem andThen_eq_next {o : Out} {k : State → Out} {t : State} (h : andThen o k = .next t) :
    ∃ s, o = .next s ∧ k s = .next t := by
  cases o with
  | next s => exact ⟨s, rfl, h⟩
  | fault f => cases h
  | refused r => cases h

theorem andThen_assoc (o : Out) (k l : State → Out) :
    andThen (andThen o k) l = andThen o fun s => andThen (k s) l := by
  cases o <;> rfl

/-- The core is not halted: the operation runs (R190). -/
theorem unlessHalted_run {s : State} {k : State → Out} (h : s.phase ≠ .halted) : unlessHalted s k = k s := by
  unfold unlessHalted
  split <;> first | rfl | exact absurd ‹_› h

/-- In `Halted` nothing changes (R157). -/
theorem unlessHalted_halted {s : State} {k : State → Out} (h : s.phase = .halted) : unlessHalted s k = .next s := by
  simp [unlessHalted, h]

theorem whenPortIdle_idle {s : State} {k : State → Out} (h : s.port = .idle) : whenPortIdle s k = k s := by
  simp [whenPortIdle, h]

theorem whenPortIdle_busy {s : State} {k : State → Out} (h : s.port ≠ .idle) :
    whenPortIdle s k = .fault .transactionInFlight := by
  unfold whenPortIdle
  split <;> first | rfl | exact absurd ‹_› h

/-- A functional unit's result is returned and nothing else changes (R11, R29). -/
theorem returnValue_run {s : State} {r : Tagged Value} (h : s.phase ≠ .halted) :
    returnValue r s = .next (setRet r s) := by
  simp [returnValue, unlessHalted_run h]

theorem returnValue_halted {s : State} {r : Tagged Value} (h : s.phase = .halted) : returnValue r s = .next s := by
  simp [returnValue, unlessHalted_halted h]

/-- A frame is taken when the core runs and no transaction is in flight. -/
theorem withFrame_run {s : State} {k : State → Out} (h : s.phase ≠ .halted) (hp : s.port = .idle) :
    withFrame s k = k s := by
  simp [withFrame, unlessHalted_run h, whenPortIdle_idle hp]

/-- What the operation with a frame in hand can answer: everything about `withFrame`. -/
theorem withFrame_cases (s : State) (k : State → Out) :
    (s.phase = .halted ∧ withFrame s k = .next s) ∨
    (s.phase ≠ .halted ∧ s.port ≠ .idle ∧ withFrame s k = .fault .transactionInFlight) ∨
    (s.phase ≠ .halted ∧ s.port = .idle ∧ withFrame s k = k s) := by
  by_cases h : s.phase = .halted
  · exact .inl ⟨h, unlessHalted_halted h⟩
  · by_cases hp : s.port = .idle
    · exact .inr (.inr ⟨h, hp, withFrame_run h hp⟩)
    · exact .inr (.inl ⟨h, hp, by simp [withFrame, unlessHalted_run h, whenPortIdle_busy hp]⟩)

@[simp] theorem regValue_some {α : Type} (r : Reg) (a : α) : regValue r (some a) = .ok a := rfl
@[simp] theorem regValue_none {α : Type} (r : Reg) : regValue r (none : Option α) = .error (.noValue r) := rfl

/-- The frame captured is the frame in hand (R59, R152). -/
@[simp] theorem heldFrame_captureFrame (b : List Byte) (s : State) : heldFrame (captureFrame b s) = .ok b := by
  simp [heldFrame, memRead, spaceLen, spaceMem, bufLoad_bufCapture_all]

/-- The phase has no part in what frame is in hand. -/
@[simp] theorem heldFrame_setPhase (p : Phase) (s : State) : heldFrame (setPhase p s) = heldFrame s := rfl

/-- The frame in hand has the length `RXLEN` says. -/
theorem heldFrame_length {s : State} {b : List Byte} (h : heldFrame s = .ok b) : s.rxlen = some b.length := by
  unfold heldFrame at h
  split at h
  · cases h
  · rename_i len hlen
    simp only [memRead, spaceLen, hlen, spaceMem] at h
    split at h
    · split at h
      · rename_i hl
        cases h
        rw [bufLoad_length hl, hlen]
      · cases h
    · cases h

/-- What was loaded into `TXBUF` is what is sent (R156). -/
theorem memRead_loadTx {t : List Byte} (h : t.length = 42) (s : State) :
    memRead .txbuf 0 Config.txFrameLen (loadTx t s) = .ok t := by
  have := bufLoad_bufCapture_all t
  rw [h] at this
  simp [memRead, spaceLen, spaceMem, Config.txFrameLen, this]

/-! The read transaction (R161). -/

theorem readTransaction_idle_answered {n : Nat} {s : State} {a : ReadAnswer} {rest : List ReadAnswer}
    (hp : s.port = .idle) (hr : s.rxAnswers = a :: rest) (hl : answerLength a ≤ Config.maxLen) :
    readTransaction n s = .ok (some a, answerRead a rest (startRead n s)) := by
  simp [readTransaction, issueRead, hp, hr, (fitsBuffer_iff _).2 hl]

theorem readTransaction_reading_answered {n : Nat} {s : State} {a : ReadAnswer} {rest : List ReadAnswer}
    (hp : s.port = .reading) (hr : s.rxAnswers = a :: rest) (hl : answerLength a ≤ Config.maxLen) :
    readTransaction n s = .ok (some a, answerRead a rest s) := by
  simp [readTransaction, issueRead, hp, hr, (fitsBuffer_iff _).2 hl]

/-- The read is answered, whether it goes out now or is in flight: the port is idle, one answer is consumed, and the
issue is recorded just where it happens (R161, R195). -/
theorem readTransaction_answered {s : State} {a : ReadAnswer} {rest : List ReadAnswer}
    (hp : s.port = .idle ∨ s.port = .reading) (hr : s.rxAnswers = a :: rest) (hl : answerLength a ≤ Config.maxLen) :
    readTransaction Config.maxLen s = .ok (some a, { s with
      port := .idle, rxAnswers := rest, trace := s.trace ++ readIssue s.port ++ [.readAnswered a] }) := by
  rcases hp with hp | hp
  · simp [readTransaction_idle_answered hp hr hl, answerRead, startRead, record, readIssue, hp]
  · simp [readTransaction_reading_answered hp hr hl, answerRead, record, readIssue, hp]

theorem readTransaction_idle_blocked {n : Nat} {s : State} (hp : s.port = .idle) (hr : s.rxAnswers = []) :
    readTransaction n s = .ok (none, startRead n s) := by
  simp [readTransaction, issueRead, hp, hr]

theorem readTransaction_reading_blocked {n : Nat} {s : State} (hp : s.port = .reading) (hr : s.rxAnswers = []) :
    readTransaction n s = .ok (none, s) := by
  simp [readTransaction, issueRead, hp, hr]

theorem readTransaction_writing {n : Nat} {s : State} {b : List Byte} (hp : s.port = .writing b) :
    readTransaction n s = .error .transactionInFlight := by
  simp [readTransaction, issueRead, hp]

theorem readTransaction_overlong {n : Nat} {s : State} {a : ReadAnswer} {rest : List ReadAnswer}
    (hp : s.port = .idle ∨ s.port = .reading) (hr : s.rxAnswers = a :: rest) (hl : Config.maxLen < answerLength a) :
    readTransaction n s = .error (.frameOverCapacity (answerLength a)) := by
  have h : ¬(Config.fitsBuffer (answerLength a) = true) := fun h => by have := (fitsBuffer_iff _).1 h; omega
  rcases hp with hp | hp <;> simp [readTransaction, issueRead, hp, hr, h]

/-- Everything the read transaction can answer (R161). -/
theorem readTransaction_cases (n : Nat) (s : State) :
    (∃ b, s.port = .writing b ∧ readTransaction n s = .error .transactionInFlight) ∨
    (s.port = .idle ∧ s.rxAnswers = [] ∧ readTransaction n s = .ok (none, startRead n s)) ∨
    (s.port = .reading ∧ s.rxAnswers = [] ∧ readTransaction n s = .ok (none, s)) ∨
    (∃ a rest, s.rxAnswers = a :: rest ∧ Config.maxLen < answerLength a ∧
      readTransaction n s = .error (.frameOverCapacity (answerLength a))) ∨
    (∃ a rest, s.rxAnswers = a :: rest ∧ answerLength a ≤ Config.maxLen ∧
      (s.port = .idle ∧ readTransaction n s = .ok (some a, answerRead a rest (startRead n s)) ∨
       s.port = .reading ∧ readTransaction n s = .ok (some a, answerRead a rest s))) := by
  cases hp : s.port with
  | writing b => exact .inl ⟨b, rfl, readTransaction_writing hp⟩
  | idle =>
    cases hr : s.rxAnswers with
    | nil => exact .inr (.inl ⟨rfl, rfl, readTransaction_idle_blocked hp hr⟩)
    | cons a rest =>
      by_cases hl : answerLength a ≤ Config.maxLen
      · exact .inr (.inr (.inr (.inr ⟨a, rest, rfl, hl, .inl ⟨rfl, readTransaction_idle_answered hp hr hl⟩⟩)))
      · exact .inr (.inr (.inr (.inl ⟨a, rest, rfl, by omega, readTransaction_overlong (.inl hp) hr (by omega)⟩)))
  | reading =>
    cases hr : s.rxAnswers with
    | nil => exact .inr (.inr (.inl ⟨rfl, rfl, readTransaction_reading_blocked hp hr⟩))
    | cons a rest =>
      by_cases hl : answerLength a ≤ Config.maxLen
      · exact .inr (.inr (.inr (.inr ⟨a, rest, rfl, hl, .inr ⟨rfl, readTransaction_reading_answered hp hr hl⟩⟩)))
      · exact .inr (.inr (.inr (.inl ⟨a, rest, rfl, by omega, readTransaction_overlong (.inr hp) hr (by omega)⟩)))

/-! The write transaction (R162). -/

theorem awaitWrite_nil {s : State} (h : s.wrAnswers = []) : awaitWrite s = (none, s) := by simp [awaitWrite, h]

theorem awaitWrite_cons {s : State} {a : WriteAnswer} {rest : List WriteAnswer} (h : s.wrAnswers = a :: rest) :
    awaitWrite s = (some a, answerWrite a rest s) := by simp [awaitWrite, h]

theorem finishWrite_nil {s : State} (h : s.wrAnswers = []) : finishWrite s = .next s := by
  simp [finishWrite, awaitWrite_nil h]

theorem finishWrite_cons {s : State} {a : WriteAnswer} {rest : List WriteAnswer} (h : s.wrAnswers = a :: rest) :
    finishWrite s = .next (endCycle (writeOutcome a) (answerWrite a rest s)) := by
  simp [finishWrite, awaitWrite_cons h]

theorem writeTransaction_idle {b : List Byte} {s : State} (hp : s.port = .idle) :
    writeTransaction b s = .ok (awaitWrite (startWrite b s)) := by
  simp [writeTransaction, issueWrite, hp]

theorem writeTransaction_same {b : List Byte} {s : State} (hp : s.port = .writing b) :
    writeTransaction b s = .ok (awaitWrite s) := by
  simp [writeTransaction, issueWrite, hp]

/-- Everything the write transaction can answer (R162). -/
theorem writeTransaction_cases (b : List Byte) (s : State) :
    ((s.port = .reading ∨ ∃ b', s.port = .writing b' ∧ b' ≠ b) ∧
      writeTransaction b s = .error .transactionInFlight) ∨
    (s.port = .idle ∧
      writeTransaction b s = .ok (awaitWrite (startWrite b s))) ∨
    (s.port = .writing b ∧ writeTransaction b s = .ok (awaitWrite s)) := by
  cases hp : s.port with
  | idle => exact .inr (.inl ⟨rfl, writeTransaction_idle hp⟩)
  | reading => exact .inl ⟨.inl rfl, by simp [writeTransaction, issueWrite, hp]⟩
  | writing b' =>
    by_cases h : b' = b
    · subst h; exact .inr (.inr ⟨rfl, writeTransaction_same hp⟩)
    · exact .inl ⟨.inr ⟨b', rfl, h⟩, by simp [writeTransaction, issueWrite, hp, h]⟩

/-- Loading again what is loaded and on its way changes nothing (R156, R224). -/
theorem loadTx_again (t : List Byte) (s : State) :
    loadTx t (startWrite t (loadTx t s)) = startWrite t (loadTx t s) := rfl

/-- Sending what was loaded, on an idle port: the write is issued, and the answer awaited (R156). -/
theorem sendTx_loadTx {t : List Byte} (h : t.length = 42) {s : State} (hp : s.port = .idle) :
    sendTx (loadTx t s) = finishWrite (startWrite t (loadTx t s)) := by
  simp [sendTx, memRead_loadTx h, issueWrite, hp]

/-- Sending what was loaded with that very write in flight: its answer is awaited, nothing issued again. -/
theorem sendTx_loadTx_same {t : List Byte} (h : t.length = 42) {s : State} (hp : s.port = .writing t) :
    sendTx (loadTx t s) = finishWrite (loadTx t s) := by
  simp [sendTx, memRead_loadTx h, issueWrite, hp]

/-- Sending what was loaded with any other transaction in flight stops (log entry 9). -/
theorem sendTx_loadTx_busy {t : List Byte} (h : t.length = 42) {s : State} (hp : s.port ≠ .idle)
    (hw : s.port ≠ .writing t) : sendTx (loadTx t s) = .fault .transactionInFlight := by
  cases hq : s.port with
  | idle => exact absurd hq hp
  | reading => simp [sendTx, memRead_loadTx h, issueWrite, hq]
  | writing b =>
    have hb : b ≠ t := fun e => hw (by rw [hq, e])
    simp [sendTx, memRead_loadTx h, issueWrite, hq, hb]

/-! The step of one phase, by the phase (R150). -/

theorem phaseStep_readFrame {s : State} (h : s.phase = .readFrame) : phaseStep s = phaseReadFrame s := by
  simp [phaseStep, h]
theorem phaseStep_decodeEthernet {s : State} (h : s.phase = .decodeEthernet) : phaseStep s = phaseDecodeEthernet s := by
  simp [phaseStep, h]
theorem phaseStep_classify {s : State} (h : s.phase = .classify) : phaseStep s = phaseClassify s := by
  simp [phaseStep, h]
theorem phaseStep_decodeArp {s : State} (h : s.phase = .decodeArp) : phaseStep s = phaseDecodeArp s := by
  simp [phaseStep, h]
theorem phaseStep_respond {s : State} (h : s.phase = .respond) : phaseStep s = phaseRespond s := by
  simp [phaseStep, h]
theorem phaseStep_encodeAndWrite {s : State} (h : s.phase = .encodeAndWrite) : phaseStep s = phaseEncodeAndWrite s := by
  simp [phaseStep, h]
theorem phaseStep_halted {s : State} (h : s.phase = .halted) : phaseStep s = .next s := by
  simp [phaseStep, h]

/-- The composition of phases goes on after a phase that does not end at a pause. -/
theorem runPhases_go {k : Nat} {s t : State} (h : phaseStep s = .next t) (hp : atPause t = false) :
    runPhases (k + 1) s = runPhases k t := by
  simp [runPhases, h, hp]

/-- The composition of phases ends at a pause. -/
theorem runPhases_stop {k : Nat} {s t : State} (h : phaseStep s = .next t) (hp : atPause t = true) :
    runPhases (k + 1) s = .next t := by
  simp [runPhases, h, hp]

/-! The phases, each in full: what it answers by what it reads (R151 to R156). -/

/-- With `ARP` and `RPL` written, `EncodeAndWrite` loads the reply and sends it. -/
theorem phaseEncodeAndWrite_some {s : State} {m r : ArpMessage} (hm : s.arp = some m) (hr : s.rpl = some r) :
    phaseEncodeAndWrite s = sendTx (loadTx (encodeEthernet (wrapReply m r s.localHA)) s) := by
  simp [phaseEncodeAndWrite, hm, hr]

theorem phaseEncodeAndWrite_idle {s : State} {m r : ArpMessage} (hp : s.port = .idle) (hm : s.arp = some m)
    (hr : s.rpl = some r) :
    phaseEncodeAndWrite s = finishWrite (startWrite (encodeEthernet (wrapReply m r s.localHA))
      (loadTx (encodeEthernet (wrapReply m r s.localHA)) s)) := by
  rw [phaseEncodeAndWrite_some hm hr, sendTx_loadTx (wrapReply_length m r s.localHA) hp]

/-- With the reply's write in flight, its answer is awaited (R162, R224). -/
theorem phaseEncodeAndWrite_writing {s : State} {m r : ArpMessage} (hm : s.arp = some m) (hr : s.rpl = some r)
    (hp : s.port = .writing (encodeEthernet (wrapReply m r s.localHA))) :
    phaseEncodeAndWrite s = finishWrite (loadTx (encodeEthernet (wrapReply m r s.localHA)) s) := by
  rw [phaseEncodeAndWrite_some hm hr, sendTx_loadTx_same (wrapReply_length m r s.localHA) hp]

/-- With any other transaction in flight it stops (log entry 9). -/
theorem phaseEncodeAndWrite_busy {s : State} {m r : ArpMessage} (hm : s.arp = some m) (hr : s.rpl = some r)
    (hp : s.port ≠ .idle) (hw : s.port ≠ .writing (encodeEthernet (wrapReply m r s.localHA))) :
    phaseEncodeAndWrite s = .fault .transactionInFlight := by
  rw [phaseEncodeAndWrite_some hm hr, sendTx_loadTx_busy (wrapReply_length m r s.localHA) hp hw]

theorem phaseClassify_some {s : State} {f : EthernetFrame} (h : s.eth = some f) :
    phaseClassify s = if f.etype = Config.ethertypeArp then .next (setPhase .decodeArp s)
      else .next (endCycle .dropEthertype s) := by
  simp [phaseClassify, h]

theorem phaseDecodeArp_ok {s : State} {f : EthernetFrame} {m : ArpMessage} (h : s.eth = some f)
    (hd : decodeArp f.payload = .ok m) : phaseDecodeArp s = .next (setPhase .respond (setArp m s)) := by
  simp [phaseDecodeArp, h, hd]

theorem phaseDecodeArp_raise {s : State} {f : EthernetFrame} {e : Failure} (h : s.eth = some f)
    (hd : decodeArp f.payload = .raise e) : phaseDecodeArp s = .next (endCycle (arpDropOutcome e) s) := by
  simp [phaseDecodeArp, h, hd]

theorem phaseRespond_ok {s : State} {m r : ArpMessage} (h : s.arp = some m)
    (hd : handle m s.localHA s.localPA = .ok r) :
    phaseRespond s = .next (setPhase .encodeAndWrite (setRpl r s)) := by
  simp [phaseRespond, h, hd]

theorem phaseRespond_raise {s : State} {m : ArpMessage} {e : Failure} (h : s.arp = some m)
    (hd : handle m s.localHA s.localPA = .raise e) : phaseRespond s = .next (endCycle .dropNoReply s) := by
  simp [phaseRespond, h, hd]

end Sys2Proof.Machine
end

