-- ==== Sys2Proof/Laws/PerInstr.lean ====
section
/-! SUPPORT. Statements for every instruction, one lemma per constructor. -/

namespace Sys2Proof.Laws

open Sys2Proof.Machine

/-- Only a frame class has an encoding, and the frame of a well-formed one fits the receive buffer: it is a
frame some `readFrame` can return (R84, R86, R88, R53). -/
def FitsBuffer.Statement (i : Instr) : Prop :=
  wellFormed i = true → ∀ b, encode i = some b → (classOf i).isSome = true ∧ b.length ≤ Config.maxLen

theorem FitsBuffer.frameRunt (bytes : List Byte) :
    FitsBuffer.Statement (.frameRunt bytes) := by
  intro hw b he
  have hw := of_decide_eq_true hw
  cases he
  have := maxLen_ge
  exact ⟨rfl, by omega⟩

theorem FitsBuffer.arpRequest (dst src sha : HA) (spa : PA) (tha : HA) (tpa : PA) (tail : List Byte) :
    FitsBuffer.Statement (.arpRequest dst src sha spa tha tpa tail) := by
  intro hw b he
  have hw := (fitsBuffer_iff _).1 hw
  cases he
  exact ⟨rfl, by simpa using hw⟩

theorem FitsBuffer.arpReply (dst src sha : HA) (spa : PA) (tha : HA) (tpa : PA) (tail : List Byte) :
    FitsBuffer.Statement (.arpReply dst src sha spa tha tpa tail) := by
  intro hw b he
  have hw := (fitsBuffer_iff _).1 hw
  cases he
  exact ⟨rfl, by simpa using hw⟩

theorem FitsBuffer.arpOtherOp (dst src : HA) (oper : U16) (sha : HA) (spa : PA) (tha : HA) (tpa : PA) (tail : List Byte) :
    FitsBuffer.Statement (.arpOtherOp dst src oper sha spa tha tpa tail) := by
  intro hw b he
  have hw := (fitsBuffer_iff _).1 (Bool.and_eq_true_iff.1 hw).2
  cases he
  exact ⟨rfl, by simpa using hw⟩

theorem FitsBuffer.arpShortBody (dst src : HA) (oper : U16) (rest : List Byte) :
    FitsBuffer.Statement (.arpShortBody dst src oper rest) := by
  intro hw b he
  have hw := of_decide_eq_true hw
  cases he
  have := maxLen_ge
  exact ⟨rfl, by simp; omega⟩

theorem FitsBuffer.arpUnsupported (dst src : HA) (payload : List Byte) :
    FitsBuffer.Statement (.arpUnsupported dst src payload) := by
  intro hw b he
  have hw := (fitsBuffer_iff _).1 (Bool.and_eq_true_iff.1 hw).2
  cases he
  exact ⟨rfl, by simpa using hw⟩

theorem FitsBuffer.arpShortHdr (dst src : HA) (payload : List Byte) :
    FitsBuffer.Statement (.arpShortHdr dst src payload) := by
  intro hw b he
  have hw := of_decide_eq_true hw
  cases he
  have := maxLen_ge
  exact ⟨rfl, by simp; omega⟩

theorem FitsBuffer.frameOther (dst src : HA) (etype : U16) (payload : List Byte) :
    FitsBuffer.Statement (.frameOther dst src etype payload) := by
  intro hw b he
  have hw := (fitsBuffer_iff _).1 (Bool.and_eq_true_iff.1 hw).2
  cases he
  exact ⟨rfl, by simpa using hw⟩

theorem FitsBuffer.ntoh16 (b : Wire2) :
    FitsBuffer.Statement (.ntoh16 b) :=
  fun _ _ he => nomatch he

theorem FitsBuffer.ntoh32 (b : Wire4) :
    FitsBuffer.Statement (.ntoh32 b) :=
  fun _ _ he => nomatch he

theorem FitsBuffer.hton16 (v : U16) :
    FitsBuffer.Statement (.hton16 v) :=
  fun _ _ he => nomatch he

theorem FitsBuffer.hton32 (v : U32) :
    FitsBuffer.Statement (.hton32 v) :=
  fun _ _ he => nomatch he

theorem FitsBuffer.bswap16 (w : U16) :
    FitsBuffer.Statement (.bswap16 w) :=
  fun _ _ he => nomatch he

theorem FitsBuffer.bswap32 (w : U32) :
    FitsBuffer.Statement (.bswap32 w) :=
  fun _ _ he => nomatch he

theorem FitsBuffer.decodeEthernet (b : List Byte) :
    FitsBuffer.Statement (.decodeEthernet b) :=
  fun _ _ he => nomatch he

theorem FitsBuffer.encodeEthernet (f : EthernetFrame) :
    FitsBuffer.Statement (.encodeEthernet f) :=
  fun _ _ he => nomatch he

theorem FitsBuffer.decodeArp (p : List Byte) :
    FitsBuffer.Statement (.decodeArp p) :=
  fun _ _ he => nomatch he

theorem FitsBuffer.encodeArp (m : ArpMessage) :
    FitsBuffer.Statement (.encodeArp m) :=
  fun _ _ he => nomatch he

theorem FitsBuffer.validArp (m : ArpMessage) :
    FitsBuffer.Statement (.validArp m) :=
  fun _ _ he => nomatch he

theorem FitsBuffer.handle (request : ArpMessage) (la : HA) (lp : PA) :
    FitsBuffer.Statement (.handle request la lp) :=
  fun _ _ he => nomatch he

theorem FitsBuffer.wrapReply (request reply : ArpMessage) (la : HA) :
    FitsBuffer.Statement (.wrapReply request reply la) :=
  fun _ _ he => nomatch he

theorem FitsBuffer.readFrame (maxLength : Nat) :
    FitsBuffer.Statement (.readFrame maxLength) :=
  fun _ _ he => nomatch he

theorem FitsBuffer.writeFrame (bytes : List Byte) :
    FitsBuffer.Statement (.writeFrame bytes) :=
  fun _ _ he => nomatch he

theorem FitsBuffer.cycle (la : HA) (lp : PA) (rx : ReadAnswer) (wr : WriteAnswer) :
    FitsBuffer.Statement (.cycle la lp rx wr) :=
  fun _ _ he => nomatch he

end Sys2Proof.Laws
end

