-- ==== Sys2Proof/Laws/Run.lean ====
section
/-! SUPPORT. The laws of a run and of what is observed of it (R164): a run one move on, an observation over more
events, and what a delivery leaves alone. -/

namespace Sys2Proof.Machine

@[simp] theorem runBy_zero (next : State → Out) (dev : Device) (s : State) : runBy next dev 0 s = .next s := rfl

/-- A run one move on. -/
theorem runBy_succ_eq {next : State → Out} {dev : Device} {n : Nat} {s t : State} (h : runBy next dev n s = .next t) :
    runBy next dev (n + 1) s = next (deliver (dev n).1 (dev n).2 t) := by
  rw [runBy, h, andThen_next]

/-- A run that has come to move `n + 1` had come to move `n` (inversion). -/
theorem runBy_eq_next {next : State → Out} {dev : Device} {n : Nat} {s u : State}
    (h : runBy next dev (n + 1) s = .next u) :
    ∃ t, runBy next dev n s = .next t ∧ next (deliver (dev n).1 (dev n).2 t) = .next u := andThen_eq_next h

/-- The first `n` moves of a run depend on what the device delivers before them alone. -/
theorem runBy_congr {next : State → Out} {dev dev' : Device} {n : Nat} {s : State} (h : ∀ k, k < n → dev k = dev' k) :
    runBy next dev n s = runBy next dev' n s := by
  induction n with
  | zero => rfl
  | succ n ih => rw [runBy, runBy, ih fun k hk => h k (Nat.lt_succ_of_lt hk), h n (Nat.lt_succ_self n)]

@[simp] theorem run_zero (dev : Device) (s : State) : run dev 0 s = .next s := rfl
@[simp] theorem phaseRun_zero (dev : Device) (s : State) : phaseRun dev 0 s = .next s := rfl

theorem run_succ_eq {dev : Device} {n : Nat} {s t : State} (h : run dev n s = .next t) :
    run dev (n + 1) s = step (deliver (dev n).1 (dev n).2 t) := runBy_succ_eq h

theorem phaseRun_succ_eq {dev : Device} {n : Nat} {s t : State} (h : phaseRun dev n s = .next t) :
    phaseRun dev (n + 1) s = phaseStep (deliver (dev n).1 (dev n).2 t) := runBy_succ_eq h

theorem run_eq_next {dev : Device} {n : Nat} {s u : State} (h : run dev (n + 1) s = .next u) :
    ∃ t, run dev n s = .next t ∧ step (deliver (dev n).1 (dev n).2 t) = .next u := runBy_eq_next h

theorem phaseRun_eq_next {dev : Device} {n : Nat} {s u : State} (h : phaseRun dev (n + 1) s = .next u) :
    ∃ t, phaseRun dev n s = .next t ∧ phaseStep (deliver (dev n).1 (dev n).2 t) = .next u := runBy_eq_next h

theorem phaseRun_congr {dev dev' : Device} {n : Nat} {s : State} (h : ∀ k, k < n → dev k = dev' k) :
    phaseRun dev n s = phaseRun dev' n s := runBy_congr h

@[simp] theorem observe_nil : observe [] = nothingSeen := rfl

/-- More events are seen one after another. -/
theorem observe_append (a b : List Event) : observe (a ++ b) = b.foldl see (observe a) := by simp [observe]

/-- One more event ends a cycle or leaves the cycles that have ended as they are. -/
theorem see_cycles (o : Observation) (e : Event) : o.cycles <+: (see o e).cycles := by
  cases e with
  | outcome c => cases h : o.read <;> simp [see, h]
  | readIssued _ => exact List.prefix_rfl
  | readAnswered _ => exact List.prefix_rfl
  | writeIssued _ => exact List.prefix_rfl
  | writeAnswered _ => exact List.prefix_rfl

/-- A prefix of a trace shows a prefix of its cycles: no cycle that has ended is lost, none is added by a stop. -/
theorem observe_cycles_prefix {a b : List Event} (h : a <+: b) : (observe a).cycles <+: (observe b).cycles := by
  obtain ⟨es, rfl⟩ := h
  rw [observe_append]
  generalize observe a = o
  induction es generalizing o with
  | nil => exact List.prefix_rfl
  | cons e es ih => exact (see_cycles o e).trans (ih (see o e))

/-- A delivery keeps the invariant: the answers to come have no part in it. -/
theorem inv_deliver {rx : List ReadAnswer} {wr : List WriteAnswer} {s : State} (h : Inv s) : Inv (deliver rx wr s) := h

/-- A delivery that keeps R161 keeps the device lawful. -/
theorem deviceLawful_deliver {rx : List ReadAnswer} {wr : List WriteAnswer} {s : State} (h : DeviceLawful s)
    (hr : ∀ a ∈ rx, answerLength a ≤ Config.maxLen) : DeviceLawful (deliver rx wr s) := by
  intro a ha
  rcases List.mem_append.1 ha with ha | ha
  · exact h a ha
  · exact hr a ha

end Sys2Proof.Machine
end

