-- ==== Sys2Proof/Tests/Slice0.lean ====
section
/-! SUPPORT. Tests. Every expected value comes from spec/95_test_vectors.md (the vector is named beside it) or
from the rule named. The second part holds, for each obligation with hypotheses, a state and operands that meet
them. -/

namespace Sys2Proof.Tests

open Sys2Proof Sys2Proof.Machine

/-! ### Helpers -/

/-- The core of the vectors: `LOCAL_HA` 02:00:00:00:00:02, `LOCAL_PA` 10.0.0.1, just after reset. -/
def core0 : State :=
  { State.reset with
    localHA := ⟨0x02#8, 0x00#8, 0x00#8, 0x00#8, 0x00#8, 0x02#8⟩
    localPA := 0x0A000001#32 }

/-- The core whose device will answer so. -/
def device (rx : List ReadAnswer) (wr : List WriteAnswer) : State := { core0 with rxAnswers := rx, wrAnswers := wr }

/-- A core in a phase, with a port. -/
def at' (p : Phase) (q : Port) : State := { core0 with phase := p, port := q }

/-- A check on the next state; a stop fails it. -/
def nextIs (o : Out) (p : State → Bool) : Bool :=
  match o with
  | .next t => p t
  | .fault _ => false
  | .refused _ => false

/-- What an operation returned. -/
def returned (o : Out) : Option (Tagged Value) :=
  match o with
  | .next t => t.ret
  | .fault _ => none
  | .refused _ => none

/-- What the environment has seen. -/
def events (o : Out) : List Event :=
  match o with
  | .next t => t.trace
  | .fault _ => []
  | .refused _ => []

/-- Phases one after another (R150), for the register-level trace. -/
def phases : Nat → State → Out
  | 0, s => .next s
  | k + 1, s => andThen (phaseStep s) (phases k)

/-! ### Frames of spec/95_test_vectors.md section 2.5, byte by byte -/

/-- V1: 42 bytes, class `ARP_REQUEST`. -/
def v1 : List Byte :=
  [0xff#8, 0xff#8, 0xff#8, 0xff#8, 0xff#8, 0xff#8, 0x02#8, 0x00#8, 0x00#8, 0x00#8, 0x00#8, 0x01#8, 0x08#8, 0x06#8,
   0x00#8, 0x01#8, 0x08#8, 0x00#8, 0x06#8, 0x04#8, 0x00#8, 0x01#8, 0x02#8, 0x00#8, 0x00#8, 0x00#8, 0x00#8, 0x01#8,
   0x0a#8, 0x00#8, 0x00#8, 0x05#8, 0x00#8, 0x00#8, 0x00#8, 0x00#8, 0x00#8, 0x00#8, 0x0a#8, 0x00#8, 0x00#8, 0x01#8]

/-- V4: 13 bytes, class `FRAME_RUNT`. -/
def v4 : List Byte :=
  [0xff#8, 0xff#8, 0xff#8, 0xff#8, 0xff#8, 0xff#8, 0x02#8, 0x00#8, 0x00#8, 0x00#8, 0x00#8, 0x01#8, 0x08#8]

/-- V5: 14 bytes, class `ARP_SHORT_HDR`. -/
def v5 : List Byte :=
  [0xff#8, 0xff#8, 0xff#8, 0xff#8, 0xff#8, 0xff#8, 0x02#8, 0x00#8, 0x00#8, 0x00#8, 0x00#8, 0x01#8, 0x08#8, 0x06#8]

/-- V6: 21 bytes, class `ARP_SHORT_HDR`. -/
def v6 : List Byte :=
  [0xff#8, 0xff#8, 0xff#8, 0xff#8, 0xff#8, 0xff#8, 0x02#8, 0x00#8, 0x00#8, 0x00#8, 0x00#8, 0x01#8, 0x08#8, 0x06#8,
   0x00#8, 0x01#8, 0x08#8, 0x00#8, 0x06#8, 0x04#8, 0x00#8]

/-- V7: 22 bytes, class `ARP_SHORT_BODY`. -/
def v7 : List Byte :=
  [0xff#8, 0xff#8, 0xff#8, 0xff#8, 0xff#8, 0xff#8, 0x02#8, 0x00#8, 0x00#8, 0x00#8, 0x00#8, 0x01#8, 0x08#8, 0x06#8,
   0x00#8, 0x01#8, 0x08#8, 0x00#8, 0x06#8, 0x04#8, 0x00#8, 0x01#8]

/-- V8: 41 bytes, class `ARP_SHORT_BODY`. -/
def v8 : List Byte :=
  [0xff#8, 0xff#8, 0xff#8, 0xff#8, 0xff#8, 0xff#8, 0x02#8, 0x00#8, 0x00#8, 0x00#8, 0x00#8, 0x01#8, 0x08#8, 0x06#8,
   0x00#8, 0x01#8, 0x08#8, 0x00#8, 0x06#8, 0x04#8, 0x00#8, 0x01#8, 0x02#8, 0x00#8, 0x00#8, 0x00#8, 0x00#8, 0x01#8,
   0x0a#8, 0x00#8, 0x00#8, 0x05#8, 0x00#8, 0x00#8, 0x00#8, 0x00#8, 0x00#8, 0x00#8, 0x0a#8, 0x00#8, 0x00#8]

/-- V9: 18 bytes, class `FRAME_OTHER`. -/
def v9 : List Byte :=
  [0x02#8, 0x00#8, 0x00#8, 0x00#8, 0x00#8, 0x02#8, 0x02#8, 0x00#8, 0x00#8, 0x00#8, 0x00#8, 0x01#8, 0x08#8, 0x00#8,
   0x45#8, 0x00#8, 0x00#8, 0x1c#8]

/-- V11: 42 bytes, class `FRAME_OTHER`. -/
def v11 : List Byte :=
  [0xff#8, 0xff#8, 0xff#8, 0xff#8, 0xff#8, 0xff#8, 0x02#8, 0x00#8, 0x00#8, 0x00#8, 0x00#8, 0x01#8, 0x06#8, 0x08#8,
   0x00#8, 0x01#8, 0x08#8, 0x00#8, 0x06#8, 0x04#8, 0x00#8, 0x01#8, 0x02#8, 0x00#8, 0x00#8, 0x00#8, 0x00#8, 0x01#8,
   0x0a#8, 0x00#8, 0x00#8, 0x05#8, 0x00#8, 0x00#8, 0x00#8, 0x00#8, 0x00#8, 0x00#8, 0x0a#8, 0x00#8, 0x00#8, 0x01#8]

/-- V12: 42 bytes, class `ARP_REPLY`. -/
def v12 : List Byte :=
  [0x02#8, 0x00#8, 0x00#8, 0x00#8, 0x00#8, 0x02#8, 0x02#8, 0x00#8, 0x00#8, 0x00#8, 0x00#8, 0x01#8, 0x08#8, 0x06#8,
   0x00#8, 0x01#8, 0x08#8, 0x00#8, 0x06#8, 0x04#8, 0x00#8, 0x02#8, 0x02#8, 0x00#8, 0x00#8, 0x00#8, 0x00#8, 0x01#8,
   0x0a#8, 0x00#8, 0x00#8, 0x05#8, 0x02#8, 0x00#8, 0x00#8, 0x00#8, 0x00#8, 0x02#8, 0x0a#8, 0x00#8, 0x00#8, 0x01#8]

/-- V15: 42 bytes, class `ARP_OTHER_OP`. -/
def v15 : List Byte :=
  [0xff#8, 0xff#8, 0xff#8, 0xff#8, 0xff#8, 0xff#8, 0x02#8, 0x00#8, 0x00#8, 0x00#8, 0x00#8, 0x01#8, 0x08#8, 0x06#8,
   0x00#8, 0x01#8, 0x08#8, 0x00#8, 0x06#8, 0x04#8, 0x01#8, 0x00#8, 0x02#8, 0x00#8, 0x00#8, 0x00#8, 0x00#8, 0x01#8,
   0x0a#8, 0x00#8, 0x00#8, 0x05#8, 0x00#8, 0x00#8, 0x00#8, 0x00#8, 0x00#8, 0x00#8, 0x0a#8, 0x00#8, 0x00#8, 0x01#8]

/-- V17: 22 bytes, class `ARP_UNSUPPORTED`. -/
def v17 : List Byte :=
  [0xff#8, 0xff#8, 0xff#8, 0xff#8, 0xff#8, 0xff#8, 0x02#8, 0x00#8, 0x00#8, 0x00#8, 0x00#8, 0x01#8, 0x08#8, 0x06#8,
   0x00#8, 0x02#8, 0x08#8, 0x00#8, 0x06#8, 0x04#8, 0x00#8, 0x01#8]

/-- V18: 42 bytes, class `ARP_UNSUPPORTED`. -/
def v18 : List Byte :=
  [0xff#8, 0xff#8, 0xff#8, 0xff#8, 0xff#8, 0xff#8, 0x02#8, 0x00#8, 0x00#8, 0x00#8, 0x00#8, 0x01#8, 0x08#8, 0x06#8,
   0x00#8, 0x01#8, 0x08#8, 0x00#8, 0xff#8, 0xff#8, 0x00#8, 0x01#8, 0x02#8, 0x00#8, 0x00#8, 0x00#8, 0x00#8, 0x01#8,
   0x0a#8, 0x00#8, 0x00#8, 0x05#8, 0x00#8, 0x00#8, 0x00#8, 0x00#8, 0x00#8, 0x00#8, 0x0a#8, 0x00#8, 0x00#8, 0x01#8]

/-- V22: 42 bytes, class `ARP_REQUEST`. -/
def v22 : List Byte :=
  [0xff#8, 0xff#8, 0xff#8, 0xff#8, 0xff#8, 0xff#8, 0x02#8, 0x00#8, 0x00#8, 0x00#8, 0x00#8, 0x01#8, 0x08#8, 0x06#8,
   0x00#8, 0x01#8, 0x08#8, 0x00#8, 0x06#8, 0x04#8, 0x00#8, 0x01#8, 0x02#8, 0x00#8, 0x00#8, 0x00#8, 0x00#8, 0x01#8,
   0x0a#8, 0x00#8, 0x00#8, 0x05#8, 0x00#8, 0x00#8, 0x00#8, 0x00#8, 0x00#8, 0x00#8, 0xc0#8, 0xa8#8, 0x01#8, 0x63#8]

/-- V26: 42 bytes, class `ARP_REQUEST`. -/
def v26 : List Byte :=
  [0xff#8, 0xff#8, 0xff#8, 0xff#8, 0xff#8, 0xff#8, 0x02#8, 0x00#8, 0x00#8, 0x00#8, 0x00#8, 0x09#8, 0x08#8, 0x06#8,
   0x00#8, 0x01#8, 0x08#8, 0x00#8, 0x06#8, 0x04#8, 0x00#8, 0x01#8, 0x02#8, 0x00#8, 0x00#8, 0x00#8, 0x00#8, 0x01#8,
   0x0a#8, 0x00#8, 0x00#8, 0x05#8, 0xaa#8, 0xbb#8, 0xcc#8, 0xdd#8, 0xee#8, 0xff#8, 0x0a#8, 0x00#8, 0x00#8, 0x01#8]

/-- V27: 42 bytes, class `ARP_REQUEST`. -/
def v27 : List Byte :=
  [0x01#8, 0x23#8, 0x45#8, 0x67#8, 0x89#8, 0xab#8, 0xfe#8, 0xdc#8, 0xba#8, 0x98#8, 0x76#8, 0x54#8, 0x08#8, 0x06#8,
   0x00#8, 0x01#8, 0x08#8, 0x00#8, 0x06#8, 0x04#8, 0x00#8, 0x01#8, 0x80#8, 0x81#8, 0x82#8, 0x83#8, 0x84#8, 0x85#8,
   0xff#8, 0xfe#8, 0xfd#8, 0xfc#8, 0x90#8, 0x91#8, 0x92#8, 0x93#8, 0x94#8, 0x95#8, 0x80#8, 0x00#8, 0x00#8, 0x01#8]

/-- The reply of V1. -/
def t1 : List Byte :=
  [0x02#8, 0x00#8, 0x00#8, 0x00#8, 0x00#8, 0x01#8, 0x02#8, 0x00#8, 0x00#8, 0x00#8, 0x00#8, 0x02#8, 0x08#8, 0x06#8,
   0x00#8, 0x01#8, 0x08#8, 0x00#8, 0x06#8, 0x04#8, 0x00#8, 0x02#8, 0x02#8, 0x00#8, 0x00#8, 0x00#8, 0x00#8, 0x02#8,
   0x0a#8, 0x00#8, 0x00#8, 0x01#8, 0x02#8, 0x00#8, 0x00#8, 0x00#8, 0x00#8, 0x01#8, 0x0a#8, 0x00#8, 0x00#8, 0x05#8]

/-- The reply of V22. -/
def t22 : List Byte :=
  [0x02#8, 0x00#8, 0x00#8, 0x00#8, 0x00#8, 0x01#8, 0x02#8, 0x00#8, 0x00#8, 0x00#8, 0x00#8, 0x02#8, 0x08#8, 0x06#8,
   0x00#8, 0x01#8, 0x08#8, 0x00#8, 0x06#8, 0x04#8, 0x00#8, 0x02#8, 0x02#8, 0x00#8, 0x00#8, 0x00#8, 0x00#8, 0x02#8,
   0xc0#8, 0xa8#8, 0x01#8, 0x63#8, 0x02#8, 0x00#8, 0x00#8, 0x00#8, 0x00#8, 0x01#8, 0x0a#8, 0x00#8, 0x00#8, 0x05#8]

/-- The reply of V26. -/
def t26 : List Byte :=
  [0x02#8, 0x00#8, 0x00#8, 0x00#8, 0x00#8, 0x01#8, 0x02#8, 0x00#8, 0x00#8, 0x00#8, 0x00#8, 0x02#8, 0x08#8, 0x06#8,
   0x00#8, 0x01#8, 0x08#8, 0x00#8, 0x06#8, 0x04#8, 0x00#8, 0x02#8, 0x02#8, 0x00#8, 0x00#8, 0x00#8, 0x00#8, 0x02#8,
   0x0a#8, 0x00#8, 0x00#8, 0x01#8, 0x02#8, 0x00#8, 0x00#8, 0x00#8, 0x00#8, 0x01#8, 0x0a#8, 0x00#8, 0x00#8, 0x05#8]

/-- The reply of V27. -/
def t27 : List Byte :=
  [0x80#8, 0x81#8, 0x82#8, 0x83#8, 0x84#8, 0x85#8, 0x02#8, 0x00#8, 0x00#8, 0x00#8, 0x00#8, 0x02#8, 0x08#8, 0x06#8,
   0x00#8, 0x01#8, 0x08#8, 0x00#8, 0x06#8, 0x04#8, 0x00#8, 0x02#8, 0x02#8, 0x00#8, 0x00#8, 0x00#8, 0x00#8, 0x02#8,
   0x80#8, 0x00#8, 0x00#8, 0x01#8, 0x80#8, 0x81#8, 0x82#8, 0x83#8, 0x84#8, 0x85#8, 0xff#8, 0xfe#8, 0xfd#8, 0xfc#8]

/-- `M1`, the 28-byte message of V1. -/
def m1 : List Byte :=
  [0x00#8, 0x01#8, 0x08#8, 0x00#8, 0x06#8, 0x04#8, 0x00#8, 0x01#8, 0x02#8, 0x00#8, 0x00#8, 0x00#8, 0x00#8, 0x01#8,
   0x0a#8, 0x00#8, 0x00#8, 0x05#8, 0x00#8, 0x00#8, 0x00#8, 0x00#8, 0x00#8, 0x00#8, 0x0a#8, 0x00#8, 0x00#8, 0x01#8]

/-- The message of vector A1. -/
def a1 : ArpMessage :=
  ⟨1#16, 0x0800#16, 6#8, 4#8, 1#16, ⟨0x02#8, 0x00#8, 0x00#8, 0x00#8, 0x00#8, 0x01#8⟩, 0x0A000005#32,
    ⟨0x00#8, 0x00#8, 0x00#8, 0x00#8, 0x00#8, 0x00#8⟩, 0x0A000001#32⟩

/-- The reply of vector H1, whose bytes are A16. -/
def h1Reply : ArpMessage :=
  ⟨1#16, 0x0800#16, 6#8, 4#8, 2#16, ⟨0x02#8, 0x00#8, 0x00#8, 0x00#8, 0x00#8, 0x02#8⟩, 0x0A000001#32,
    ⟨0x02#8, 0x00#8, 0x00#8, 0x00#8, 0x00#8, 0x01#8⟩, 0x0A000005#32⟩

/-- The invalid message of vector A17. -/
def a17 : ArpMessage :=
  ⟨0x1234#16, 0x5678#16, 0x9A#8, 0xBC#8, 0xDEF0#16, ⟨0x01#8, 0x02#8, 0x03#8, 0x04#8, 0x05#8, 0x06#8⟩, 0x0708090A#32,
    ⟨0x0b#8, 0x0c#8, 0x0d#8, 0x0e#8, 0x0f#8, 0x10#8⟩, 0x11121314#32⟩

/-! ### WellFormed refuses an ill-formed term for each of its checks -/

/-- R84 class 1: 14 bytes are no runt. -/
theorem test_wf_runt : wellFormed (.frameRunt v5) = false := by decide
/-- R84 class 8: `oper` 1 is a Request. -/
theorem test_wf_other_request : wellFormed (.arpOtherOp ⟨0, 0, 0, 0, 0, 0⟩ ⟨0, 0, 0, 0, 0, 0⟩ 1#16 ⟨0, 0, 0, 0, 0, 0⟩ 0 ⟨0, 0, 0, 0, 0, 0⟩ 0 []) =
    false := by decide
/-- R84 class 8: `oper` 2 is a Reply. -/
theorem test_wf_other_reply : wellFormed (.arpOtherOp ⟨0, 0, 0, 0, 0, 0⟩ ⟨0, 0, 0, 0, 0, 0⟩ 2#16 ⟨0, 0, 0, 0, 0, 0⟩ 0 ⟨0, 0, 0, 0, 0, 0⟩ 0 []) =
    false := by decide
/-- R84 class 5: 20 bytes after the fixed header are a whole message. -/
theorem test_wf_short_body : wellFormed (.arpShortBody ⟨0, 0, 0, 0, 0, 0⟩ ⟨0, 0, 0, 0, 0, 0⟩ 1#16 (List.replicate 20 0#8)) = false := by
  decide
/-- R84 class 4: a payload of 7 bytes has no whole fixed header. -/
theorem test_wf_unsupported_short : wellFormed (.arpUnsupported ⟨0, 0, 0, 0, 0, 0⟩ ⟨0, 0, 0, 0, 0, 0⟩ (List.replicate 7 0#8)) = false := by
  decide
/-- R84 class 4: a supported fixed header is not of this class. -/
theorem test_wf_unsupported_gate : wellFormed (.arpUnsupported ⟨0, 0, 0, 0, 0, 0⟩ ⟨0, 0, 0, 0, 0, 0⟩ m1) = false := by decide
/-- R84 class 3: a payload of 8 bytes has a whole fixed header. -/
theorem test_wf_short_hdr : wellFormed (.arpShortHdr ⟨0, 0, 0, 0, 0, 0⟩ ⟨0, 0, 0, 0, 0, 0⟩ (List.replicate 8 0#8)) = false := by decide
/-- R84 class 2: ethertype 0x0806 is not of this class. -/
theorem test_wf_other_arp : wellFormed (.frameOther ⟨0, 0, 0, 0, 0, 0⟩ ⟨0, 0, 0, 0, 0, 0⟩ 0x0806#16 []) = false := by decide
/-- R162: a write is of 42 bytes. -/
theorem test_wf_write : wellFormed (.writeFrame (List.replicate 41 0#8)) = false := by decide
/-- R161: a read asks for `MAXLEN` bytes. -/
theorem test_wf_read : wellFormed (.readFrame 0) = false := by
  have := maxLen_ge
  simp only [wellFormed, decide_eq_false_iff_not]
  omega

/-- A sequence of more than `MAXLEN` bytes fits no receive buffer (R53). -/
theorem overlong (n : Nat) (h : Config.maxLen < n) : Config.fitsBuffer n = false := by
  cases hf : Config.fitsBuffer n with
  | false => rfl
  | true => have := (fitsBuffer_iff n).1 hf; omega

/-- R53: no frame longer than `MAXLEN`, in the classes without a bound of their own and in `cycle`. -/
theorem test_wf_capacity :
    wellFormed (.arpRequest ⟨0, 0, 0, 0, 0, 0⟩ ⟨0, 0, 0, 0, 0, 0⟩ ⟨0, 0, 0, 0, 0, 0⟩ 0 ⟨0, 0, 0, 0, 0, 0⟩ 0
      (List.replicate Config.maxLen 0#8)) = false ∧
    wellFormed (.arpReply ⟨0, 0, 0, 0, 0, 0⟩ ⟨0, 0, 0, 0, 0, 0⟩ ⟨0, 0, 0, 0, 0, 0⟩ 0 ⟨0, 0, 0, 0, 0, 0⟩ 0
      (List.replicate Config.maxLen 0#8)) = false ∧
    wellFormed (.cycle ⟨0, 0, 0, 0, 0, 0⟩ 0 (.frame (List.replicate (Config.maxLen + 1) 0#8)) .failure) = false := by
  simp only [wellFormed, List.length_replicate]
  exact ⟨overlong _ (by omega), overlong _ (by omega), overlong _ (by omega)⟩
/-- R53: the same of classes 2, 4 and 8. -/
theorem test_wf_capacity_others :
    wellFormed (.arpOtherOp ⟨0, 0, 0, 0, 0, 0⟩ ⟨0, 0, 0, 0, 0, 0⟩ 3#16 ⟨0, 0, 0, 0, 0, 0⟩ 0 ⟨0, 0, 0, 0, 0, 0⟩ 0
      (List.replicate Config.maxLen 0#8)) = false ∧
    wellFormed (.arpUnsupported ⟨0, 0, 0, 0, 0, 0⟩ ⟨0, 0, 0, 0, 0, 0⟩ (List.replicate Config.maxLen 0#8)) = false ∧
    wellFormed (.frameOther ⟨0, 0, 0, 0, 0, 0⟩ ⟨0, 0, 0, 0, 0, 0⟩ 0#16 (List.replicate Config.maxLen 0#8)) = false := by
  simp only [wellFormed, List.length_replicate, Bool.and_eq_false_iff]
  exact ⟨.inr (overlong _ (by omega)), .inr (overlong _ (by omega)), .inr (overlong _ (by omega))⟩

/-! ### The decoder, one word of every class (R80 to R84) -/

/-- V1: `ff*6`, source, `08 06`, `00 01 08 00 06 04 00 01`, the four addresses. -/
theorem test_decode_request : decode v1 = .instr (.arpRequest ⟨0xff#8, 0xff#8, 0xff#8, 0xff#8, 0xff#8, 0xff#8⟩ ⟨0x02#8, 0x00#8, 0x00#8, 0x00#8, 0x00#8, 0x01#8⟩
    ⟨0x02#8, 0x00#8, 0x00#8, 0x00#8, 0x00#8, 0x01#8⟩ 0x0A000005#32 ⟨0x00#8, 0x00#8, 0x00#8, 0x00#8, 0x00#8, 0x00#8⟩ 0x0A000001#32 []) := by decide
/-- V12: `oper` `00 02`. -/
theorem test_decode_reply : decode v12 = .instr (.arpReply ⟨0x02#8, 0x00#8, 0x00#8, 0x00#8, 0x00#8, 0x02#8⟩ ⟨0x02#8, 0x00#8, 0x00#8, 0x00#8, 0x00#8, 0x01#8⟩
    ⟨0x02#8, 0x00#8, 0x00#8, 0x00#8, 0x00#8, 0x01#8⟩ 0x0A000005#32 ⟨0x02#8, 0x00#8, 0x00#8, 0x00#8, 0x00#8, 0x02#8⟩ 0x0A000001#32 []) := by decide
/-- V15: `oper` `01 00`, no Request. -/
theorem test_decode_other_op : decode v15 = .instr (.arpOtherOp ⟨0xff#8, 0xff#8, 0xff#8, 0xff#8, 0xff#8, 0xff#8⟩ ⟨0x02#8, 0x00#8, 0x00#8, 0x00#8, 0x00#8, 0x01#8⟩
    0x0100#16 ⟨0x02#8, 0x00#8, 0x00#8, 0x00#8, 0x00#8, 0x01#8⟩ 0x0A000005#32 ⟨0x00#8, 0x00#8, 0x00#8, 0x00#8, 0x00#8, 0x00#8⟩ 0x0A000001#32 []) := by decide
/-- V7: the fixed header and nothing after it. -/
theorem test_decode_short_body : decode v7 = .instr (.arpShortBody ⟨0xff#8, 0xff#8, 0xff#8, 0xff#8, 0xff#8, 0xff#8⟩ ⟨0x02#8, 0x00#8, 0x00#8, 0x00#8, 0x00#8, 0x01#8⟩ 1#16 []) := by decide
/-- V8: one byte short of a message. -/
theorem test_decode_short_body_41 : decode v8 = .instr (.arpShortBody ⟨0xff#8, 0xff#8, 0xff#8, 0xff#8, 0xff#8, 0xff#8⟩ ⟨0x02#8, 0x00#8, 0x00#8, 0x00#8, 0x00#8, 0x01#8⟩ 1#16
    [0x02#8, 0x00#8, 0x00#8, 0x00#8, 0x00#8, 0x01#8, 0x0a#8, 0x00#8, 0x00#8, 0x05#8,
      0x00#8, 0x00#8, 0x00#8, 0x00#8, 0x00#8, 0x00#8, 0x0a#8, 0x00#8, 0x00#8]) := by decide
/-- V17: `htype` 2 with 8 payload bytes (C1). -/
theorem test_decode_unsupported : decode v17 = .instr (.arpUnsupported ⟨0xff#8, 0xff#8, 0xff#8, 0xff#8, 0xff#8, 0xff#8⟩ ⟨0x02#8, 0x00#8, 0x00#8, 0x00#8, 0x00#8, 0x01#8⟩
    [0x00#8, 0x02#8, 0x08#8, 0x00#8, 0x06#8, 0x04#8, 0x00#8, 0x01#8]) := by decide
/-- V6: 7 payload bytes. -/
theorem test_decode_short_hdr : decode v6 = .instr (.arpShortHdr ⟨0xff#8, 0xff#8, 0xff#8, 0xff#8, 0xff#8, 0xff#8⟩ ⟨0x02#8, 0x00#8, 0x00#8, 0x00#8, 0x00#8, 0x01#8⟩
    [0x00#8, 0x01#8, 0x08#8, 0x00#8, 0x06#8, 0x04#8, 0x00#8]) := by decide
/-- V9: IPv4. -/
theorem test_decode_other : decode v9 = .instr (.frameOther ⟨0x02#8, 0x00#8, 0x00#8, 0x00#8, 0x00#8, 0x02#8⟩ ⟨0x02#8, 0x00#8, 0x00#8, 0x00#8, 0x00#8, 0x01#8⟩ 0x0800#16 [0x45#8, 0x00#8, 0x00#8, 0x1c#8]) := by decide
/-- V4: 13 bytes. -/
theorem test_decode_runt : decode v4 = .instr (.frameRunt v4) := by decide
/-- V27: every address byte distinct, high bits set. -/
theorem test_decode_high_bits : decode v27 = .instr (.arpRequest ⟨0x01#8, 0x23#8, 0x45#8, 0x67#8, 0x89#8, 0xab#8⟩ ⟨0xfe#8, 0xdc#8, 0xba#8, 0x98#8, 0x76#8, 0x54#8⟩
    ⟨0x80#8, 0x81#8, 0x82#8, 0x83#8, 0x84#8, 0x85#8⟩ 0xFFFEFDFC#32 ⟨0x90#8, 0x91#8, 0x92#8, 0x93#8, 0x94#8, 0x95#8⟩ 0x80000001#32 []) := by decide

/-- The classes of V5, V11, V18, V22 and V26, by the decoder. -/
theorem test_decode_classes :
    [v5, v11, v18, v22, v26].map (fun b => classOf (decodeFrame b)) =
      [some .arpShortHdr, some .frameOther, some .arpUnsupported, some .arpRequest, some .arpRequest] := by decide
/-- The same vectors by the opcode table's mask rows. -/
theorem test_table_classes :
    [v1, v4, v6, v7, v9, v12, v15, v17].map tableClass =
      [some .arpRequest, some .frameRunt, some .arpShortHdr, some .arpShortBody, some .frameOther, some .arpReply,
        some .arpOtherOp, some .arpUnsupported] := by decide
/-- R82: `W22` has byte 0 at the top; the match word of `ARP_REPLY` in spec/opcode_table.json. -/
theorem test_table_word : (decodeTableWord 176 0x08060001080006040002).bind classOf = some .arpReply := by decide
/-- A whole runt as the table's word: byte 0 of the frame is the most significant byte. -/
theorem test_table_word_runt : decodeTableWord 16 0x1234 = some (.frameRunt [0x12#8, 0x34#8]) := by decide
/-- R88: a named operation has no encoding. -/
theorem test_table_word_none : decodeTableWord 0 0 = none := by decide
/-- The next step after reset runs the table's word. -/
theorem test_fetch_word : nextIs (step (State.reset.withFetchWord 104 0)) (fun t =>
    decide (t.trace.getLast? = some (.outcome .dropEthTooShort))) = true := by decide

/-! ### The byte-order converter -/

/-- B2: order matters. -/
theorem test_ntoh16 : returned (exec (.ntoh16 ⟨0x06#8, 0x08#8⟩) core0) = some (.ok (.u16 0x0608#16)) := by decide
/-- B5: unsigned. -/
theorem test_ntoh16_high : returned (exec (.ntoh16 ⟨0x80#8, 0x01#8⟩) core0) = some (.ok (.u16 32769#16)) := by decide
/-- B12. -/
theorem test_ntoh32 : returned (exec (.ntoh32 ⟨0xc0#8, 0xa8#8, 0x01#8, 0x63#8⟩) core0) = some (.ok (.u32 0xC0A80163#32)) := by decide
/-- B15. -/
theorem test_ntoh32_high : returned (exec (.ntoh32 ⟨0x80#8, 0x00#8, 0x00#8, 0x01#8⟩) core0) = some (.ok (.u32 2147483649#32)) := by decide
/-- B8. -/
theorem test_hton16 : returned (exec (.hton16 0x0806#16) core0) = some (.ok (.wire2 ⟨0x08#8, 0x06#8⟩)) := by decide
/-- B10. -/
theorem test_hton16_high : returned (exec (.hton16 0xFF00#16) core0) = some (.ok (.wire2 ⟨0xff#8, 0x00#8⟩)) := by decide
/-- B17. -/
theorem test_hton32 : returned (exec (.hton32 0x01020304#32) core0) = some (.ok (.wire4 ⟨0x01#8, 0x02#8, 0x03#8, 0x04#8⟩)) := by decide
/-- B16. -/
theorem test_hton32_pa : returned (exec (.hton32 0x0A000001#32) core0) = some (.ok (.wire4 ⟨0x0a#8, 0x00#8, 0x00#8, 0x01#8⟩)) := by decide
/-- B20. -/
theorem test_bswap16 : returned (exec (.bswap16 0x0806#16) core0) = some (.ok (.u16 0x0608#16)) := by decide
/-- B23. -/
theorem test_bswap32 : returned (exec (.bswap32 0x11223344#32) core0) = some (.ok (.u32 0x44332211#32)) := by decide

/-! ### The codecs and the responder -/

/-- E2: 13 bytes, whatever they are. -/
theorem test_decode_ethernet_13 : returned (exec (.decodeEthernet v4) core0) = some (.raise .frameTooShort) := by decide
/-- E6: addresses keep wire order. -/
theorem test_decode_ethernet_order : returned (exec (.decodeEthernet [0x01#8, 0x23#8, 0x45#8, 0x67#8, 0x89#8, 0xab#8, 0xfe#8, 0xdc#8, 0xba#8, 0x98#8, 0x76#8, 0x54#8, 0xff#8, 0xff#8, 0x00#8]) core0) = some (.ok (.frame
    ⟨⟨0x01#8, 0x23#8, 0x45#8, 0x67#8, 0x89#8, 0xab#8⟩, ⟨0xfe#8, 0xdc#8, 0xba#8, 0x98#8, 0x76#8, 0x54#8⟩, 0xFFFF#16, [0x00#8]⟩)) := by decide
/-- E8: the ethertype big-endian, nothing padded. -/
theorem test_encode_ethernet : returned (exec (.encodeEthernet ⟨⟨0xff#8, 0xff#8, 0xff#8, 0xff#8, 0xff#8, 0xff#8⟩, ⟨0x00#8, 0x00#8, 0x00#8, 0x00#8, 0x00#8, 0x00#8⟩, 0x0001#16, [0xde#8, 0xad#8]⟩) core0) = some (.ok (.bytes
    [0xff#8, 0xff#8, 0xff#8, 0xff#8, 0xff#8, 0xff#8, 0x00#8, 0x00#8, 0x00#8, 0x00#8, 0x00#8, 0x00#8, 0x00#8, 0x01#8,
      0xde#8, 0xad#8])) := by decide
/-- A1. -/
theorem test_decode_arp : returned (exec (.decodeArp m1) core0) = some (.ok (.message a1)) := by decide
/-- A5: the gate comes before the full length test (C1). -/
theorem test_decode_arp_order : returned (exec (.decodeArp [0x00#8, 0x02#8, 0x08#8, 0x00#8, 0x06#8, 0x04#8, 0x00#8, 0x01#8]) core0) = some (.raise .unsupported) := by decide
/-- A17: an invalid message encodes in the fixed layout. -/
theorem test_encode_arp_fixed : returned (exec (.encodeArp a17) core0) = some (.ok (.bytes
    [0x12#8, 0x34#8, 0x56#8, 0x78#8, 0x9a#8, 0xbc#8, 0xde#8, 0xf0#8, 0x01#8, 0x02#8, 0x03#8, 0x04#8, 0x05#8, 0x06#8,
      0x07#8, 0x08#8, 0x09#8, 0x0a#8, 0x0b#8, 0x0c#8, 0x0d#8, 0x0e#8, 0x0f#8, 0x10#8, 0x11#8, 0x12#8, 0x13#8, 0x14#8])) := by decide
/-- A20. -/
theorem test_valid_arp : returned (exec (.validArp a1) core0) = some (.ok (.boolean true)) := by decide
/-- A21. -/
theorem test_valid_arp_not : returned (exec (.validArp a17) core0) = some (.ok (.boolean false)) := by decide
/-- H1. -/
theorem test_handle : returned (exec (.handle a1 ⟨0x02#8, 0x00#8, 0x00#8, 0x00#8, 0x00#8, 0x02#8⟩ 0x0A000001#32) core0) = some (.ok (.message h1Reply)) := by decide
/-- H6. -/
theorem test_handle_reply : returned (exec (.handle { a1 with oper := 2#16 } ⟨0x02#8, 0x00#8, 0x00#8, 0x00#8, 0x00#8, 0x02#8⟩ 0x0A000001#32) core0) = some (.raise .noReply) := by decide
/-- W1: the bytes are those of A16. -/
theorem test_wrap_reply : returned (exec (.wrapReply a1 h1Reply ⟨0x02#8, 0x00#8, 0x00#8, 0x00#8, 0x00#8, 0x02#8⟩) core0) = some (.ok (.frame
    ⟨⟨0x02#8, 0x00#8, 0x00#8, 0x00#8, 0x00#8, 0x01#8⟩, ⟨0x02#8, 0x00#8, 0x00#8, 0x00#8, 0x00#8, 0x02#8⟩, 0x0806#16,
      [0x00#8, 0x01#8, 0x08#8, 0x00#8, 0x06#8, 0x04#8, 0x00#8, 0x02#8, 0x02#8, 0x00#8, 0x00#8, 0x00#8, 0x00#8, 0x02#8,
       0x0a#8, 0x00#8, 0x00#8, 0x01#8, 0x02#8, 0x00#8, 0x00#8, 0x00#8, 0x00#8, 0x01#8, 0x0a#8, 0x00#8, 0x00#8, 0x05#8]⟩)) := by decide
/-- V26 with the count 60 of P4: the destination is the sender, not the Ethernet source. -/
theorem test_cycle : returned (exec (.cycle ⟨0x02#8, 0x00#8, 0x00#8, 0x00#8, 0x00#8, 0x02#8⟩ 0x0A000001#32 (.frame v26) (.wrote 60)) core0) = some (.ok (.cycleResult ⟨some t26, .replied, false⟩)) := by decide
/-- P3 cycle 3. -/
theorem test_cycle_write_failure : returned (exec (.cycle ⟨0x02#8, 0x00#8, 0x00#8, 0x00#8, 0x00#8, 0x02#8⟩ 0x0A000001#32 (.frame v1) .failure) core0) = some (.ok (.cycleResult ⟨some t1, .writeFailed, false⟩)) := by decide

/-! ### The transactions -/

/-- R161: the device's answer is returned. -/
theorem test_read_frame : nextIs (exec (.readFrame 1000) (device [.frame v9, .failure] [])) (fun t =>
    decide (t.ret = some (.ok (.bytes v9)) ∧ t.rxAnswers = [.failure] ∧ t.port = .idle)) = true := by decide
/-- R224: no answer, and the read stays in flight. -/
theorem test_read_frame_blocks : nextIs (exec (.readFrame 1000) core0) (fun t =>
    decide (t.port = .reading ∧ t.trace = [.readIssued 1000])) = true := by decide
/-- R162: the frame is handed over, and the count returned. -/
theorem test_write_frame : nextIs (exec (.writeFrame t1) (device [] [.wrote 42])) (fun t =>
    decide (t.ret = some (.ok (.count 42)) ∧ framesWritten t.trace = [t1] ∧ t.port = .idle)) = true := by decide
/-- R162: the failure. -/
theorem test_write_frame_failure : returned (exec (.writeFrame t1) (device [] [.failure])) = some (.raise .writeFailure) := by
  decide

/-! ### The frame classes, each run by exec on the instruction its bytes decode to: the outcome, and nothing written -/

/-- The last event, and the frames written, of the frame's instruction. -/
def outcomeOf (b : List Byte) (s : State) : Option Event × List (List Byte) :=
  ((events (exec (decodeFrame b) s)).getLast?, framesWritten (events (exec (decodeFrame b) s)))

/-- V4: outcome 1. -/
theorem test_exec_runt : outcomeOf v4 (device [] [.wrote 42]) = (some (.outcome .dropEthTooShort), []) := by decide
/-- V11: outcome 2. -/
theorem test_exec_other : outcomeOf v11 (device [] [.wrote 42]) = (some (.outcome .dropEthertype), []) := by decide
/-- V5: outcome 3. -/
theorem test_exec_short_hdr : outcomeOf v5 (device [] [.wrote 42]) = (some (.outcome .dropArpTooShort), []) := by decide
/-- V18: outcome 4. -/
theorem test_exec_unsupported : outcomeOf v18 (device [] [.wrote 42]) = (some (.outcome .dropArpUnsupported), []) := by decide
/-- V8: outcome 3. -/
theorem test_exec_short_body : outcomeOf v8 (device [] [.wrote 42]) = (some (.outcome .dropArpTooShort), []) := by decide
/-- V12: outcome 5. -/
theorem test_exec_reply : outcomeOf v12 (device [] [.wrote 42]) = (some (.outcome .dropNoReply), []) := by decide
/-- V15: outcome 5. -/
theorem test_exec_other_op : outcomeOf v15 (device [] [.wrote 42]) = (some (.outcome .dropNoReply), []) := by decide
/-- V1: outcome 0. -/
theorem test_exec_request : outcomeOf v1 (device [] [.wrote 42]) = (some (.outcome .replied), [t1]) := by decide
/-- V22: outcome 0. -/
theorem test_exec_request_other_tpa : outcomeOf v22 (device [] [.wrote 42]) = (some (.outcome .replied), [t22]) := by decide

/-! ### Steps -/

/-- P1 cycle 1: the request is read and answered, and the core is back in `ReadFrame` without working values. -/
theorem test_step_request : nextIs (step (device [.frame v1, .failure] [.wrote 42])) (fun t =>
    decide (t.trace.tail = [.readAnswered (.frame v1), .writeIssued t1, .writeAnswered (.wrote 42),
      .outcome .replied]) && workingClear t && decide (t.phase = .readFrame)) = true := by
  decide
/-- P1 cycle 2: the read failure halts the core. -/
theorem test_step_read_failure : nextIs (step (device [.failure] [])) (fun t =>
    decide (t.phase = .halted) && workingClear t && decide (t.trace.getLast? = some (.outcome .readFailed))) = true := by
  decide
/-- D20: a frame of 0 bytes is a runt, not a failure. -/
theorem test_step_empty_frame : nextIs (step (device [.frame []] [])) (fun t =>
    decide (t.phase = .readFrame ∧ t.trace.getLast? = some (.outcome .dropEthTooShort))) = true := by decide
/-- R157: nothing happens in `Halted`. -/
theorem test_step_halted : nextIs (step (at' .halted .idle)) (fun t => decide (t = at' .halted .idle)) = true := by rfl

/-! ### The register-level trace of P1, cycle 1 (95_test_vectors.md section 3) -/

/-- After `ReadFrame`: `RXBUF` holds the 42 bytes of V1, `RXLEN` 42. -/
theorem test_trace_read_frame : nextIs (phases 1 (device [.frame v1] [.wrote 42])) (fun t =>
    decide (t.rxlen = some 42 ∧ bufLoad t.rxbuf 0 42 = some v1 ∧ t.eth = none)) = true := by decide
/-- After `DecodeEthernet`: the four fields of `ETH`. -/
theorem test_trace_decode_ethernet : nextIs (phases 2 (device [.frame v1] [.wrote 42])) (fun t =>
    decide (t.eth = some ⟨⟨0xff#8, 0xff#8, 0xff#8, 0xff#8, 0xff#8, 0xff#8⟩, ⟨0x02#8, 0x00#8, 0x00#8, 0x00#8, 0x00#8, 0x01#8⟩, 0x0806#16, m1⟩)) = true := by
  decide
/-- After `Classify` and `DecodeArp`: the nine fields of `ARP`. -/
theorem test_trace_decode_arp : nextIs (phases 4 (device [.frame v1] [.wrote 42])) (fun t =>
    decide (t.arp = some a1 ∧ t.rpl = none)) = true := by decide
/-- After `Respond`: the nine fields of `RPL`. -/
theorem test_trace_respond : nextIs (phases 5 (device [.frame v1] [.wrote 42])) (fun t =>
    decide (t.rpl = some h1Reply ∧ t.txlen = none)) = true := by decide
/-- `EncodeAndWrite` with the device silent: `TXBUF` holds T1, `TXLEN` 42, and the write is in flight. -/
theorem test_trace_encode : nextIs (phases 6 (device [.frame v1] [])) (fun t =>
    decide (bufLoad t.txbuf 0 42 = some t1 ∧ t.txlen = some 42 ∧ t.port = .writing t1)) = true := by decide
/-- Back in `ReadFrame`: every working register is without value. -/
theorem test_trace_end : nextIs (phases 6 (device [.frame v1] [.wrote 42])) (fun t =>
    workingClear t && decide (t.phase = .readFrame)) = true := by decide

/-! ### Witnesses: for each obligation with hypotheses, a state and operands that meet them -/

/-- The core in `Halted`. -/
def halted0 : State := at' .halted .idle

/-- A frame of just `MAXLEN` bytes. -/
def full : List Byte := List.replicate Config.maxLen 0#8

/-- A frame of one byte too many. -/
def tooLong : List Byte := List.replicate (Config.maxLen + 1) 0#8

theorem full_length : full.length = Config.maxLen := List.length_replicate

theorem tooLong_length : tooLong.length = Config.maxLen + 1 := List.length_replicate

/-- What has at most 1000 bytes fits. -/
theorem fits (b : List Byte) (h : b.length ≤ 1000) : b.length ≤ Config.maxLen := Nat.le_trans h maxLen_ge

/-- Instructions of the eight classes, at the ends of their ranges. -/
def samples : List Instr := [
  .frameRunt [], .frameRunt v4,
  .arpRequest ⟨255, 255, 255, 255, 255, 255⟩ ⟨2, 0, 0, 0, 0, 1⟩ ⟨2, 0, 0, 0, 0, 1⟩ 0xFFFFFFFF#32 ⟨0, 0, 0, 0, 0, 0⟩ 0 [],
  .arpReply ⟨2, 0, 0, 0, 0, 2⟩ ⟨2, 0, 0, 0, 0, 1⟩ ⟨2, 0, 0, 0, 0, 1⟩ 0 ⟨2, 0, 0, 0, 0, 2⟩ 0 [0#8],
  .arpOtherOp ⟨0, 0, 0, 0, 0, 0⟩ ⟨0, 0, 0, 0, 0, 0⟩ 0#16 ⟨0, 0, 0, 0, 0, 0⟩ 0 ⟨0, 0, 0, 0, 0, 0⟩ 0 [],
  .arpOtherOp ⟨0, 0, 0, 0, 0, 0⟩ ⟨0, 0, 0, 0, 0, 0⟩ 3#16 ⟨0, 0, 0, 0, 0, 0⟩ 0 ⟨0, 0, 0, 0, 0, 0⟩ 0 [],
  .arpShortBody ⟨0, 0, 0, 0, 0, 0⟩ ⟨0, 0, 0, 0, 0, 0⟩ 1#16 [],
  .arpShortBody ⟨0, 0, 0, 0, 0, 0⟩ ⟨0, 0, 0, 0, 0, 0⟩ 1#16 (List.replicate 19 0#8),
  .arpUnsupported ⟨0, 0, 0, 0, 0, 0⟩ ⟨0, 0, 0, 0, 0, 0⟩ (List.replicate 8 0#8),
  .arpShortHdr ⟨0, 0, 0, 0, 0, 0⟩ ⟨0, 0, 0, 0, 0, 0⟩ [], .arpShortHdr ⟨0, 0, 0, 0, 0, 0⟩ ⟨0, 0, 0, 0, 0, 0⟩ (List.replicate 7 0#8),
  .frameOther ⟨0, 0, 0, 0, 0, 0⟩ ⟨0, 0, 0, 0, 0, 0⟩ 0x0805#16 []]

theorem witness_DecodeOfEncodedInstruction :
    (∀ i ∈ samples, wellFormed i = true ∧ (encode i).isSome = true) ∧
    wellFormed (.frameOther ⟨0, 0, 0, 0, 0, 0⟩ ⟨0, 0, 0, 0, 0, 0⟩ 0#16 (full.drop 14)) = true := by
  refine ⟨by decide, ?_⟩
  have := maxLen_ge
  simp only [wellFormed, List.length_drop, full_length, Bool.and_eq_true, fitsBuffer_iff]
  exact ⟨by decide, by omega⟩

theorem witness_EncodeOfDecodedFrame : ∃ i, decode v8 = .instr i := ⟨_, test_decode_short_body_41⟩

theorem witness_ClassConditionsInOrder :
    Config.maxLen < tooLong.length ∧ full.length ≤ Config.maxLen ∧
      ∀ b ∈ [[], v4, v5, v6, v7, v8, v1], b.length ≤ Config.maxLen :=
  ⟨by rw [tooLong_length]; omega, by rw [full_length], fun b h => fits b (by
    have key : ∀ b ∈ [[], v4, v5, v6, v7, v8, v1], b.length ≤ 1000 := by decide
    exact key b h)⟩

theorem witness_OpcodeTableAgreesWithDecoder :
    full.length ≤ Config.maxLen ∧ ∀ b ∈ [[], v4, v5, v6, v7, v8, v1], b.length ≤ Config.maxLen :=
  witness_ClassConditionsInOrder.2

theorem witness_NtohReturnsBigEndianValue : core0.phase ≠ .halted := by decide
theorem witness_HtonReturnsMostSignificantByteFirst : core0.phase ≠ .halted := by decide
theorem witness_ByteSwapAndLaneView : core0.phase ≠ .halted := by decide
theorem witness_EncodeEthernetReturnsHeaderAndPayload : core0.phase ≠ .halted := by decide
theorem witness_EncodeArpReturnsFixedLayout : core0.phase ≠ .halted := by decide
theorem witness_HandleReturnsReplyOrNoReply : core0.phase ≠ .halted := by decide

theorem witness_DecodeEthernetReturnsFrameOrTooShort :
    core0.phase ≠ .halted ∧ ([] : List Byte).length < 14 ∧ v4.length < 14 := by decide

theorem witness_EthernetCodecRoundTrips : 14 ≤ v5.length ∧ v4.length < 14 := by decide

/-- The second clause at each of its six bytes, and the third at both ends of its range. -/
theorem witness_DecodeArpReturnsMessageOrFailure :
    core0.phase ≠ .halted ∧ (List.replicate 7 0#8).length < 8 ∧
    (∀ g ∈ [[0x01#8, 0x01#8, 0x08#8, 0x00#8, 0x06#8, 0x04#8], [0x00#8, 0x02#8, 0x08#8, 0x00#8, 0x06#8, 0x04#8],
        [0x00#8, 0x01#8, 0x86#8, 0x00#8, 0x06#8, 0x04#8], [0x00#8, 0x01#8, 0x08#8, 0x06#8, 0x06#8, 0x04#8],
        [0x00#8, 0x01#8, 0x08#8, 0x00#8, 0x08#8, 0x04#8], [0x00#8, 0x01#8, 0x08#8, 0x00#8, 0x06#8, 0x10#8]],
      ¬(g.getD 0 0#8 = 0x00#8 ∧ g.getD 1 0#8 = 0x01#8 ∧ g.getD 2 0#8 = 0x08#8 ∧ g.getD 3 0#8 = 0x00#8 ∧
        g.getD 4 0#8 = 0x06#8 ∧ g.getD 5 0#8 = 0x04#8)) ∧
    ([] : List Byte).length < 20 ∧ (List.replicate 19 0#8).length < 20 := by decide

theorem witness_ValidArpReadsFourFields : core0.phase ≠ .halted ∧ Machine.decodeArp m1 = .ok a1 := by decide

theorem witness_ArpCodecRoundTrips :
    Machine.validArp a1 = true ∧ Machine.decodeArp m1 = .ok a1 ∧ Machine.decodeArp (m1 ++ [0#8]) = .ok a1 ∧
      Machine.validArp a17 = false := by decide

theorem witness_HandleFiltersNoAddress : Machine.validArp a1 = true ∧ a1.oper = 1#16 := by decide

theorem witness_WrapReplyAddressesTheRequester :
    core0.phase ≠ .halted ∧ Machine.handle a1 ⟨2, 0, 0, 0, 0, 2⟩ 0x0A000001#32 = .ok h1Reply := by decide

/-- Each clause, with an idle port and with a read in flight, and a frame of just `MAXLEN` bytes. -/
theorem witness_ReadFrameReturnsTheDevicesAnswer :
    (device [.frame full] []).phase ≠ .halted ∧ (device [.frame full] []).rxAnswers = [.frame full] ∧
    full.length ≤ Config.maxLen ∧ (device [.frame full] []).port = .idle ∧
    { device [.frame full] [] with port := .reading }.port = .reading ∧
    (device [.failure] []).rxAnswers = [.failure] ∧ (device [.failure] []).port = .idle ∧
    { device [.failure] [] with port := .reading }.port = .reading ∧
    core0.rxAnswers = [] ∧ core0.port = .idle ∧ { core0 with port := .reading }.rxAnswers = [] :=
  ⟨by decide, rfl, by rw [full_length], rfl, rfl, rfl, rfl, rfl, rfl, rfl, rfl⟩

theorem witness_WriteFrameHandsTheFrameOver :
    core0.phase ≠ .halted ∧ (device [] [.wrote 0]).wrAnswers = [.wrote 0] ∧ (device [] [.wrote 0]).port = .idle ∧
    { device [] [.failure] with port := .writing t1 }.wrAnswers = [.failure] ∧
    { device [] [.failure] with port := .writing t1 }.port = .writing t1 ∧ core0.wrAnswers = [] ∧
    { core0 with port := .writing t1 }.wrAnswers = [] := by decide

theorem witness_UnlawfulTransactionsFault :
    core0.phase ≠ .halted ∧ { core0 with port := .writing t1 }.port = .writing t1 ∧
    { core0 with port := .reading }.port = .reading ∧ v4 ≠ t1 ∧ (classOf (.frameRunt v4)).isSome ∧
    { core0 with port := .reading }.port ≠ .idle ∧ (device [.frame tooLong] []).port = .idle ∧
    (device [.frame tooLong] []).rxAnswers = [.frame tooLong] ∧ Config.maxLen < tooLong.length :=
  ⟨by decide, rfl, rfl, by decide, rfl, by decide, rfl, rfl, by rw [tooLong_length]; omega⟩

theorem witness_RuntAndOtherFramesAreDropped :
    core0.phase ≠ .halted ∧ core0.port = .idle ∧ v4.length < 14 ∧ ([] : List Byte).length < 14 ∧
      0x0805#16 ≠ 0x0806#16 ∧ 0x0807#16 ≠ 0x0806#16 := by decide

theorem witness_UndecodableArpFramesAreDropped :
    core0.phase ≠ .halted ∧ core0.port = .idle ∧ (List.replicate 7 0#8).length < 8 ∧
    8 ≤ (List.replicate 8 0#8).length ∧
    (List.replicate 8 0#8).take 6 ≠ [0x00#8, 0x01#8, 0x08#8, 0x00#8, 0x06#8, 0x04#8] ∧
    (List.replicate 19 0#8).length < 20 := by decide

theorem witness_RepliesAndOtherOperationsAreDropped :
    core0.phase ≠ .halted ∧ core0.port = .idle ∧ (0#16 ≠ 1#16 ∧ 0#16 ≠ 2#16) ∧ (3#16 ≠ 1#16 ∧ 3#16 ≠ 2#16) ∧
      (0x0100#16 ≠ 1#16 ∧ 0x0100#16 ≠ 2#16) := by decide

theorem witness_RequestsAreAnswered :
    (device [] [.wrote 0]).phase ≠ .halted ∧ (device [] [.wrote 0]).port = .idle ∧
    (device [] [.wrote 0]).wrAnswers = [.wrote 0] ∧ (device [] [.failure]).wrAnswers = [.failure] := by decide

theorem witness_UnansweredWriteBlocks : core0.phase ≠ .halted ∧ core0.port = .idle ∧ core0.wrAnswers = [] := by decide

theorem witness_ReplyIgnoresHeaderTargetAndTail :
    (device [] [.wrote 42]).wrAnswers ≠ [] ∧ (device [] [.wrote 42]).phase ≠ .halted ∧
      (device [] [.wrote 42]).port = .idle := by decide

/-- Every class that is dropped has an instruction among the samples, and a request has an encoding. -/
theorem witness_CycleOutputsByFrameClass :
    core0.phase ≠ .halted ∧
    (∀ k ∈ [FrameClass.frameRunt, .frameOther, .arpShortHdr, .arpUnsupported, .arpShortBody, .arpReply, .arpOtherOp],
      (dropCode k).isSome = true ∧
        (samples.any fun i => wellFormed i && (encode i).isSome && decide (classOf i = some k)) = true) ∧
    (encode (.arpRequest ⟨0, 0, 0, 0, 0, 0⟩ ⟨0, 0, 0, 0, 0, 0⟩ ⟨0, 0, 0, 0, 0, 0⟩ 0 ⟨0, 0, 0, 0, 0, 0⟩ 0 [])).isSome = true := by
  decide

/-- The core in the idle wait: a read in flight. -/
def waiting (rx : List ReadAnswer) (wr : List WriteAnswer) : State := { device rx wr with port := .reading }

theorem witness_ReadFramePhaseCapturesOrHalts :
    (device [.frame full] []).phase = .readFrame ∧ (device [.frame full] []).port = .idle ∧
    (device [.frame full] []).rxAnswers = [.frame full] ∧ full.length ≤ Config.maxLen ∧
    (waiting [.frame full] []).phase = .readFrame ∧ (waiting [.frame full] []).port = .reading ∧
    (waiting [.frame full] []).rxAnswers = [.frame full] ∧
    (device [.failure] []).phase = .readFrame ∧ (device [.failure] []).rxAnswers = [.failure] ∧
    (waiting [.failure] []).rxAnswers = [.failure] ∧
    core0.phase = .readFrame ∧ core0.port = .idle ∧ core0.rxAnswers = [] ∧ (waiting [] []).rxAnswers = [] :=
  ⟨rfl, rfl, rfl, by rw [full_length], rfl, rfl, rfl, rfl, rfl, rfl, rfl, rfl, rfl, rfl⟩

/-- R195: the read in flight is answered; it is not issued again. -/
theorem test_read_in_flight_answered : nextIs (phaseStep (waiting [.frame v4] [])) (fun t =>
    decide (t.phase = .decodeEthernet ∧ t.port = .idle ∧ t.trace = [.readAnswered (.frame v4)])) = true := by decide

/-- The core with a frame in hand. -/
def inHand (b : List Byte) : State := captureFrame b (at' .decodeEthernet .idle)

theorem witness_DecodeEthernetPhaseWritesEthOrDrops :
    (inHand v4).phase = .decodeEthernet ∧ heldFrame (inHand v4) = .ok v4 ∧ v4.length < 14 ∧
    heldFrame (inHand v5) = .ok v5 ∧ 14 ≤ v5.length :=
  ⟨rfl, heldFrame_captureFrame _ _, by decide, heldFrame_captureFrame _ _, by decide⟩

/-- The Ethernet frame of V1. -/
def f1 : EthernetFrame := ⟨⟨255, 255, 255, 255, 255, 255⟩, ⟨2, 0, 0, 0, 0, 1⟩, 0x0806#16, m1⟩

/-- The core in a phase, with `ETH` and `ARP` written. -/
def decoded (p : Phase) (f : EthernetFrame) (m : ArpMessage) : State := setArp m (setEth f (at' p .idle))

theorem witness_ClassifyPhaseTestsEthertype :
    (decoded .classify f1 a1).phase = .classify ∧ (decoded .classify f1 a1).eth = some f1 ∧
      (decoded .classify { f1 with etype := 0x0800#16 } a1).eth = some { f1 with etype := 0x0800#16 } := by decide

theorem witness_DecodeArpPhaseWritesArpOrDrops :
    (decoded .decodeArp f1 a1).phase = .decodeArp ∧ (decoded .decodeArp f1 a1).eth = some f1 ∧
    Machine.decodeArp f1.payload = .ok a1 ∧ Machine.decodeArp ((v8).drop 14) = .raise .frameTooShort ∧
    Machine.decodeArp ((v18).drop 14) = .raise .unsupported := by decide

theorem witness_RespondPhaseWritesReplyOrDrops :
    (decoded .respond f1 a1).phase = .respond ∧ (decoded .respond f1 a1).arp = some a1 ∧ Machine.validArp a1 = true ∧
    (decoded .respond f1 h1Reply).arp = some h1Reply ∧ Machine.validArp h1Reply = true := by decide

/-- The invariant, as a Bool. -/
def inv (s : State) : Bool := Memory.wf s.rxbuf && Memory.wf s.txbuf && phaseInv s

/-- The core in `EncodeAndWrite`, with the reply ready. -/
def ready (wr : List WriteAnswer) (q : Port) : State :=
  { setRpl h1Reply (decoded .encodeAndWrite f1 a1) with wrAnswers := wr, port := q }

theorem witness_EncodeAndWritePhaseWritesOnce :
    (ready [.wrote 0] .idle).phase = .encodeAndWrite ∧ (ready [.wrote 0] .idle).arp = some a1 ∧
    (ready [.wrote 0] .idle).rpl = some h1Reply ∧
    t1 = Machine.encodeEthernet (Machine.wrapReply a1 h1Reply (ready [] .idle).localHA) ∧
    (ready [.wrote 0] .idle).wrAnswers = [.wrote 0] ∧
    (ready [.wrote 0] .idle).port = .idle ∧ (ready [.failure] (.writing t1)).wrAnswers = [.failure] ∧
    (ready [.failure] (.writing t1)).port = .writing t1 ∧ (ready [] .idle).wrAnswers = [] ∧
    (ready [] (.writing t1)).wrAnswers = [] ∧ (ready [] .reading).port = .reading ∧
    (ready [] (.writing v4)).port = .writing v4 ∧ v4 ≠ t1 ∧
    nextIs (phases 6 (device [.frame v1] [])) (fun t =>
      inv t && decide (t.phase = .encodeAndWrite ∧ t.arp = some a1 ∧ t.rpl = some h1Reply ∧ t.port = .writing t1 ∧
        t.wrAnswers = [])) = true := by decide

/-- R62: the reply is not written while another write is in flight (log entry 9). -/
theorem test_reply_behind_other_write :
    phaseStep (ready [.wrote 42] (.writing v4)) = .fault .transactionInFlight := by rfl

theorem witness_HaltedChangesNothing : halted0.phase = .halted := by decide

theorem witness_ReadingARegisterWithoutValueFaults :
    (at' .decodeEthernet .idle).rxlen = none ∧
    { inHand v4 with rxbuf := [] }.rxlen = some 13 ∧ 12 < 13 ∧ bufByte { inHand v4 with rxbuf := [] }.rxbuf 12 = none ∧
    (at' .classify .idle).eth = none ∧ (at' .decodeArp .idle).eth = none ∧
    (at' .respond .idle).arp = none ∧ (at' .encodeAndWrite .idle).arp = none ∧
    (decoded .encodeAndWrite f1 a1).arp.isSome ∧ (decoded .encodeAndWrite f1 a1).rpl = none := by decide

/-- Each clause at the end of its range. -/
theorem witness_BufferReadsStayInTheValidRange :
    41 + 1 ≤ v1.length ∧ v1.length < 42 + 1 ∧ t1.length = 42 ∧ 42 + 0 ≤ 42 ∧ 42 < 42 + 1 ∧ core0.rxlen = none ∧
      core0.txlen = none ∧ 41 + 1 ≤ 42 ∧ 41 < 41 + 1 ∧
      { core0 with rxlen := some 42 }.rxlen = some 42 ∧ bufByte { core0 with rxlen := some 42 }.rxbuf 41 = none ∧
      { core0 with txlen := some 42 }.txlen = some 42 ∧ bufByte { core0 with txlen := some 42 }.txbuf 41 = none := by
  decide

theorem witness_StepRunsTheDecodedInstruction :
    (device [.frame v4] []).phase = .readFrame ∧ (device [.frame v4] []).port = .idle ∧
    (device [.frame v4] []).rxAnswers = [.frame v4] ∧ decode v4 = .instr (.frameRunt v4) ∧
    (waiting [.frame v4] []).phase = .readFrame ∧ (waiting [.frame v4] []).port = .reading ∧
    (waiting [.frame v4] []).rxAnswers = [.frame v4] ∧
    (inHand v4).phase = .decodeEthernet ∧ heldFrame (inHand v4) = .ok v4 :=
  ⟨rfl, rfl, rfl, test_decode_runt, rfl, rfl, rfl, rfl, heldFrame_captureFrame _ _⟩

theorem witness_FetchWordRunsOnTheNextStep : decodeTableWord 16 0x1234 = some (.frameRunt [0x12#8, 0x34#8]) :=
  test_table_word_runt

/-- The invariant holds of a state reached in each of the seven phases, and a step from it answers a next state. -/
theorem witness_StepIsTheCompositionOfPhases :
    (∀ kp ∈ [(0, Phase.readFrame), (1, .decodeEthernet), (2, .classify), (3, .decodeArp), (4, .respond), (5, .encodeAndWrite)],
      nextIs (phases kp.1 (device [.frame v1] [])) (fun t =>
        inv t && decide (t.phase = kp.2) && nextIs (step t) (fun _ => true)) = true) ∧
    nextIs (phases 1 (device [.failure] [])) (fun t => inv t && decide (t.phase = .halted)) = true := by
  decide

theorem witness_StepIsCycle :
    (device [.frame full] [.wrote 42]).phase = .readFrame ∧ (device [.frame full] [.wrote 42]).port = .idle ∧
    (device [.frame full] [.wrote 42]).rxAnswers = [.frame full] ∧ answerLength (.frame full) ≤ Config.maxLen ∧
    (device [.frame full] [.wrote 42]).wrAnswers = [.wrote 42] ∧ (device [.failure] [.wrote 42]).rxAnswers = [.failure] ∧
    answerLength .failure ≤ Config.maxLen ∧ (waiting [.frame full] [.wrote 42]).phase = .readFrame ∧
    (waiting [.frame full] [.wrote 42]).port = .reading ∧ (waiting [.frame full] [.wrote 42]).rxAnswers = [.frame full] ∧
    (waiting [.frame full] [.wrote 42]).wrAnswers = [.wrote 42] :=
  ⟨rfl, rfl, rfl, Nat.le_of_eq full_length, rfl, rfl, Nat.zero_le _, rfl, rfl, rfl, rfl⟩

/-- The invariant holds, and the step answers a next state: with the write of P1 in flight, and at its end. -/
theorem witness_StepKeepsTheInvariant :
    nextIs (phases 6 (device [.frame v1] [])) (fun t => inv t && decide (t.port = .writing t1) && nextIs (step t) inv) = true ∧
      nextIs (step (device [.frame v1] [.wrote 42])) inv = true := by decide

theorem witness_NoStepStops :
    Inv (device [.frame full, .failure] []) ∧ DeviceLawful (device [.frame full, .failure] []) := by
  refine ⟨by decide, ?_⟩
  intro a ha
  rcases List.mem_cons.1 ha with rfl | ha
  · exact Nat.le_of_eq full_length
  · rcases List.mem_cons.1 ha with rfl | ha
    · exact Nat.zero_le _
    · cases ha

/-- A core that has answered before, with another `LOCAL_PA`, other answers to come and a read in flight. -/
def later : State :=
  { waiting [.frame v1, .failure] [.wrote 42, .failure] with localPA := 0#32, trace := [.outcome .replied] }

/-- Two cores that agree in `LOCAL_HA`, and differ in `LOCAL_PA`, in the port, in the answers to come and in what
came before. -/
theorem witness_CyclesAreIndependent :
    (device [.frame v1] [.wrote 42]).phase = .readFrame ∧ later.phase = .readFrame ∧
    (device [.frame v1] [.wrote 42]).port = .idle ∧ later.port = .reading ∧
    (device [.frame v1] [.wrote 42]).localHA = later.localHA ∧ (device [.frame v1] [.wrote 42]).localPA ≠ later.localPA ∧
    (device [.frame v1] [.wrote 42]).rxAnswers = .frame v1 :: [] ∧ later.rxAnswers = .frame v1 :: [.failure] ∧
    (device [.frame v1] [.wrote 42]).wrAnswers = .wrote 42 :: [] ∧ later.wrAnswers = .wrote 42 :: [.failure] ∧
    answerLength (.frame v1) ≤ Config.maxLen :=
  ⟨rfl, rfl, rfl, rfl, rfl, by decide, rfl, rfl, rfl, rfl, fits v1 (by decide)⟩

theorem witness_OneReadAndAtMostOneWritePerCycle :
    (device [.frame v1] []).phase = .readFrame ∧ (device [.frame v1] []).port = .idle ∧
    (device [.frame v1] []).rxAnswers = [.frame v1] ∧ v1.length ≤ Config.maxLen ∧
    (waiting [.frame v1] []).phase = .readFrame ∧ (waiting [.frame v1] []).port = .reading ∧
    (waiting [.frame v1] []).rxAnswers = [.frame v1] ∧ classOf (decodeFrame v1) = some .arpRequest ∧
    classOf (decodeFrame v9) ≠ some .arpRequest :=
  ⟨rfl, rfl, rfl, fits v1 (by decide), rfl, rfl, rfl, by decide, by decide⟩

/-- The invariant holds, the step answers a next state, and a frame is written. -/
theorem witness_EveryFrameWrittenIsAReply :
    inv (device [.frame v1] [.wrote 42]) = true ∧
      nextIs (step (device [.frame v1] [.wrote 42])) (fun t => decide (framesWritten t.trace = [t1])) = true := by decide

theorem witness_ReadFailureHaltsTheCore :
    (device [.failure] []).phase = .readFrame ∧ (device [.failure] []).port = .idle ∧
    (device [.failure] []).rxAnswers = [.failure] ∧ (waiting [.failure] []).phase = .readFrame ∧
    (waiting [.failure] []).port = .reading ∧ (waiting [.failure] []).rxAnswers = [.failure] := by decide

theorem witness_WriteFailureIsNotFatal :
    classOf (decodeFrame v1) = some .arpRequest ∧ core0.phase ≠ .halted ∧ core0.port = .idle := by decide

theorem witness_LocalIdentityIsConstant :
    (exec (.ntoh16 ⟨0#8, 1#8⟩) core0 = .next { core0 with ret := some (.ok (.u16 1#16)) }) ∧
    (phaseStep halted0 = .next halted0) ∧ (step halted0 = .next halted0) := ⟨rfl, rfl, rfl⟩

theorem witness_BuffersStayCanonical :
    Memory.wf (inHand v1).rxbuf = true ∧ Memory.wf (inHand v1).txbuf = true ∧
      nextIs (exec (decodeFrame v1) (inHand v1)) (fun t => decide (bufLoad t.txbuf 0 42 = some t.txbuf.unzip.2)) = true := by
  decide

theorem witness_PureOperationsTouchNothing :
    classOf (.ntoh16 ⟨0#8, 1#8⟩) = none ∧ (∀ n, Instr.ntoh16 ⟨0#8, 1#8⟩ ≠ .readFrame n) ∧
      (∀ b, Instr.ntoh16 ⟨0#8, 1#8⟩ ≠ .writeFrame b) :=
  ⟨rfl, fun _ => by simp, fun _ => by simp⟩

theorem witness_HostResetForgetsEverything :
    core0.trace = halted0.trace ∧ ∀ a ∈ [ReadAnswer.frame full], answerLength a ≤ Config.maxLen := by
  refine ⟨by decide, fun a ha => ?_⟩
  rcases List.mem_cons.1 ha with rfl | ha
  · exact Nat.le_of_eq full_length
  · cases ha

/-! ### Runs -/

/-- The device of P6: it returns V9 for ever. -/
def forever : Device := fun _ => ([.frame v9], [])

/-- D16, R215: a run stopped in `Classify`: the frame has been read, nothing written, no outcome. -/
theorem test_run_stopped_in_classify : nextIs (phaseRun forever 2 core0) (fun t =>
    decide (t.phase = .classify ∧ cyclesSeen t = [] ∧ cycleUnderWay t = (some (.frame v9), none, none))) = true := by
  decide

/-- P6: the first cycle writes nothing and ends with outcome 2. -/
theorem test_run_first_cycle : nextIs (run forever 1 core0) (fun t =>
    decide (t.phase = .readFrame ∧ cyclesSeen t = [⟨.frame v9, none, none, .dropEthertype⟩])) = true := by decide

/-- R195: the read goes out, the core waits, and the device's answer wakes it. -/
theorem test_run_wakes : nextIs (run (fun k => (if k = 1 then [.failure] else [], [])) 2 core0) (fun t =>
    decide (t.phase = .halted ∧ cyclesSeen t = [⟨.failure, none, none, .readFailed⟩])) = true := by decide

/-- V9 and V1 by turns for ever, every write answered with 42. -/
theorem witness_RunIsTheConcatenationOfItsCycles :
    ∃ (f : Nat → List Byte) (w : Nat → WriteAnswer) (dev : Device), (∀ k, (f k).length ≤ Config.maxLen) ∧
      f 0 = v9 ∧ f 1 = v1 ∧
      ∀ k, dev k = ([.frame (f k)],
        if (Machine.cycle ⟨2, 0, 0, 0, 0, 2⟩ 0x0A000001#32 (.frame (f k)) (w k)).tx.isSome then [w k] else []) := by
  refine ⟨fun k => if k % 2 = 0 then v9 else v1, fun _ => .wrote 42, _, fun k => ?_, rfl, rfl, fun _ => rfl⟩
  dsimp only
  split
  · exact fits v9 (by decide)
  · exact fits v1 (by decide)

/-- The device of P6, second form: it never answers. -/
def silent : Device := fun _ => ([], [])

/-- A device that goes on answering and one that never does. -/
theorem witness_RunHaltsGoesOnWaitsOrIsStopped :
    (∀ k, ∀ a ∈ (forever k).1, answerLength a ≤ Config.maxLen) ∧
    (∀ k, ∀ a ∈ (silent k).1, answerLength a ≤ Config.maxLen) ∧
    RunStops forever core0 (setPhase .decodeEthernet (captureFrame v9
      { core0 with trace := [.readIssued Config.maxLen, .readAnswered (.frame v9)] })) ∧
    History forever core0 [.readIssued Config.maxLen] := by
  refine ⟨fun _ a ha => ?_, fun _ a ha => ?_, ⟨1, rfl⟩, _, ⟨1, rfl⟩, [.readAnswered (.frame v9)], rfl⟩
  · rcases List.mem_cons.1 ha with rfl | ha
    · exact fits v9 (by decide)
    · cases ha
  · cases ha

/-! ### Where a step stops -/

/-- R27: `Classify` without `ETH`. -/
theorem test_no_value : phaseStep (at' .classify .idle) = .fault (.noValue .eth) := rfl
/-- R62: a frame is not taken while a read is in flight. -/
theorem test_in_flight : exec (.frameRunt v4) (at' .readFrame .reading) = .fault .transactionInFlight := rfl

end Sys2Proof.Tests
end

section
/-! PROOFS. What the two decoders answer on the bytes of a frame class (30_encoding.md R80 to R84, R120, R130): the
lemmas every statement about a frame in hand rests on. -/

namespace Sys2Proof.Machine

@[simp] theorem ntoh16_hton16 (v : U16) : ntoh16 (hton16 v) = v := by
  rw [ntoh16_eq_append]
  exact (split_u16 v).symm

@[simp] theorem ntoh32_hton32 (v : U32) : ntoh32 (hton32 v) = v := by
  rw [ntoh32_eq_append]
  exact (split_u32 v).symm

/-- An Ethernet header before a payload decodes to its fields (R80, R120). -/
theorem decodeEthernet_frameBytes (dst src : HA) (etype : U16) (p : List Byte) :
    decodeEthernet (frameBytes dst src etype p) = .ok ⟨dst, src, etype, p⟩ := by
  have h : frameBytes dst src etype p = [dst.b0, dst.b1, dst.b2, dst.b3, dst.b4, dst.b5, src.b0, src.b1, src.b2,
      src.b3, src.b4, src.b5, (hton16 etype).b0, (hton16 etype).b1] ++ p := rfl
  rw [h, decodeEthernet_header, ntoh16_hton16]

/-- `decodeEthernet` answers a frame whose payload is all but the header (R24, R120). -/
theorem decodeEthernet_ok_length {b : List Byte} {f : EthernetFrame} (h : decodeEthernet b = .ok f) :
    f.payload.length + 14 = b.length := by
  unfold decodeEthernet at h
  split at h
  · cases h
  · rename_i hlen
    cases h
    simp [fromOffset, Config.ethHdrLen] at hlen ⊢
    omega

/-- The gate's six bytes are the four format fields of a supported message (R84, R130). -/
theorem take_six_eq_gateBytes_iff {p : List Byte} (h : 8 ≤ p.length) :
    p.take 6 = gateBytes ↔ u16At p 0 = Config.htypeEthernet ∧ u16At p 2 = Config.ptypeIpv4 ∧
      byteAt p 4 = Config.hlenEthernet ∧ byteAt p 5 = Config.plenIpv4 := by
  obtain ⟨h0, h1, t0, t1, hl, pl, o0, o1, r, rfl⟩ := exists_eight h
  have hty : ntoh16 ⟨h0, h1⟩ = Config.htypeEthernet ↔ h0 = 0x00#8 ∧ h1 = 0x01#8 := by
    rw [ntoh16_eq_append]; exact append_inj_iff (a' := 0x00#8) (b' := 0x01#8)
  have pty : ntoh16 ⟨t0, t1⟩ = Config.ptypeIpv4 ↔ t0 = 0x08#8 ∧ t1 = 0x00#8 := by
    rw [ntoh16_eq_append]; exact append_inj_iff (a' := 0x08#8) (b' := 0x00#8)
  simp [u16At, wire2At, hty, pty, gateBytes, Config.hlenEthernet, Config.plenIpv4, and_assoc]

/-- A whole fixed header that fails the gate is unsupported (R130 step 3). -/
theorem decodeArp_unsupported {p : List Byte} (h : 8 ≤ p.length) (hg : p.take 6 ≠ gateBytes) :
    decodeArp p = .raise .unsupported := by
  rw [ne_eq, take_six_eq_gateBytes_iff h] at hg
  rw [decodeArp, if_neg (by simpa [Config.arpFixedLen] using h), if_pos (by tauto)]

/-- Past the gate only the length decides (R130 steps 4 and 5). -/
theorem decodeArp_gate {p : List Byte} (h : 8 ≤ p.length) (hg : p.take 6 = gateBytes) :
    decodeArp p = if p.length < 28 then .raise .frameTooShort else .ok (arpFieldsOf p) := by
  obtain ⟨hty, pty, hl, pl⟩ := (take_six_eq_gateBytes_iff h).1 hg
  rw [decodeArp, if_neg (by simpa [Config.arpFixedLen] using h), if_neg (by simp [hty, pty, hl, pl]), hl, pl]
  rfl

/-- What `decodeArp` answers is valid (R25, R132). -/
theorem decodeArp_ok_valid {p : List Byte} {m : ArpMessage} (h : decodeArp p = .ok m) : validArp m = true := by
  unfold decodeArp at h
  split at h
  · cases h
  · split at h
    · cases h
    · rename_i hg
      split at h
      · cases h
      · cases h
        simpa [validArp, arpFieldsOf, and_assoc] using hg

/-- The message of a frame of classes 6, 7 and 8 (R81, R84). -/
def supportedMessage (oper : U16) (sha : HA) (spa : PA) (tha : HA) (tpa : PA) : ArpMessage :=
  ⟨Config.htypeEthernet, Config.ptypeIpv4, Config.hlenEthernet, Config.plenIpv4, oper, sha, spa, tha, tpa⟩

@[simp] theorem supportedMessage_valid (oper : U16) (sha : HA) (spa : PA) (tha : HA) (tpa : PA) :
    validArp (supportedMessage oper sha spa tha tpa) = true := rfl

/-- A supported message decodes to its fields, whatever follows it (R130 step 5, R136). -/
theorem decodeArp_arpBytes (oper : U16) (sha : HA) (spa : PA) (tha : HA) (tpa : PA) (tail : List Byte) :
    decodeArp (arpBytes oper sha spa tha tpa ++ tail) = .ok (supportedMessage oper sha spa tha tpa) := by
  have hlen : 28 ≤ (arpBytes oper sha spa tha tpa ++ tail).length := by simp
  have hf : arpFieldsOf (arpBytes oper sha spa tha tpa ++ tail) =
      ⟨ntoh16 (hton16 Config.htypeEthernet), ntoh16 (hton16 Config.ptypeIpv4), Config.hlenEthernet, Config.plenIpv4,
        ntoh16 (hton16 oper), sha, ntoh32 (hton32 spa), tha, ntoh32 (hton32 tpa)⟩ := rfl
  rw [decodeArp_gate (by omega) rfl, if_neg (by omega), hf]
  simp only [ntoh16_hton16, ntoh32_hton32]
  rfl

/-- A supported fixed header with fewer than 20 bytes after it is too short (R130 step 4). -/
theorem decodeArp_arpFixedBytes_short {oper : U16} {rest : List Byte} (h : rest.length < 20) :
    decodeArp (arpFixedBytes oper ++ rest) = .raise .frameTooShort := by
  rw [decodeArp_gate (by simp) rfl, if_pos (by simp; omega)]

end Sys2Proof.Machine
end

section
/-! PROOFS. What the instruction of each frame class answers in a state in which a frame can be taken (R84, R152 to
R156), and so what the instruction of any frame can end in. -/

namespace Sys2Proof.Machine

theorem decodeEthernetOn_short {b : List Byte} (s : State) (h : b.length < 14) :
    decodeEthernetOn b s = .next (endCycle .dropEthTooShort s) := by
  simp [decodeEthernetOn, decodeEthernet_short h]

theorem decodeEthernetOn_ok {b : List Byte} {f : EthernetFrame} (s : State) (h : decodeEthernet b = .ok f) :
    decodeEthernetOn b s = .next (setPhase .classify (setEth f s)) := by
  simp [decodeEthernetOn, h]

/-- A frame of another ethertype is dropped in `Classify` (R153); the end of the cycle discards `ETH`. -/
theorem throughClassify_other {etype : U16} (dst src : HA) (p : List Byte) (s : State)
    (h : etype ≠ Config.ethertypeArp) :
    throughClassify (frameBytes dst src etype p) s = .next (endCycle .dropEthertype s) := by
  rw [throughClassify, decodeEthernetOn_ok s (decodeEthernet_frameBytes dst src etype p), andThen_next,
    phaseClassify_some rfl, if_neg h]
  rfl

section
variable {dst src : HA} {p : List Byte} {m r : ArpMessage} {e : Failure} {s : State}

/-- An ARP frame passes `Classify` (R153). -/
theorem throughClassify_arp :
    throughClassify (frameBytes dst src Config.ethertypeArp p) s =
      .next (setPhase .decodeArp (setEth ⟨dst, src, Config.ethertypeArp, p⟩ s)) := by
  rw [throughClassify, decodeEthernetOn_ok s (decodeEthernet_frameBytes dst src _ p), andThen_next,
    phaseClassify_some rfl, if_pos rfl]
  rfl

/-- An ARP frame whose message does not decode is dropped in `DecodeArp` (R154). -/
theorem throughDecodeArp_raise (h : decodeArp p = .raise e) :
    throughDecodeArp (frameBytes dst src Config.ethertypeArp p) s = .next (endCycle (arpDropOutcome e) s) := by
  rw [throughDecodeArp, throughClassify_arp, andThen_next, phaseDecodeArp_raise rfl h]
  rfl

/-- An ARP frame whose message decodes passes `DecodeArp` (R154). -/
theorem throughDecodeArp_ok (h : decodeArp p = .ok m) :
    throughDecodeArp (frameBytes dst src Config.ethertypeArp p) s =
      .next (setPhase .respond (setArp m (setEth ⟨dst, src, Config.ethertypeArp, p⟩ s))) := by
  rw [throughDecodeArp, throughClassify_arp, andThen_next, phaseDecodeArp_ok rfl h]
  rfl

/-- An ARP frame that asks for no reply is dropped in `Respond` (R155). -/
theorem throughRespond_raise (h : decodeArp p = .ok m) (hr : handle m s.localHA s.localPA = .raise e) :
    throughRespond (frameBytes dst src Config.ethertypeArp p) s = .next (endCycle .dropNoReply s) := by
  rw [throughRespond, throughDecodeArp_ok h, andThen_next]
  exact phaseRespond_raise (s := setPhase .respond (setArp m (setEth _ s))) rfl hr

/-- A frame that is answered passes `Respond` (R155). -/
theorem throughRespond_ok (h : decodeArp p = .ok m) (hr : handle m s.localHA s.localPA = .ok r) :
    throughRespond (frameBytes dst src Config.ethertypeArp p) s =
      .next (setPhase .encodeAndWrite (setRpl r (setArp m (setEth ⟨dst, src, Config.ethertypeArp, p⟩ s)))) := by
  rw [throughRespond, throughDecodeArp_ok h, andThen_next]
  exact phaseRespond_ok (s := setPhase .respond (setArp m (setEth _ s))) rfl hr

end

/-- A supported message is answered just when it is a request (R140). -/
theorem handle_supportedMessage (oper : U16) (sha : HA) (spa : PA) (tha : HA) (tpa : PA) (la : HA) (lp : PA) :
    handle (supportedMessage oper sha spa tha tpa) la lp =
      if oper = Config.opRequest then .ok (replyTo (supportedMessage oper sha spa tha tpa) la)
      else .raise .noReply := by
  rw [handle, supportedMessage_valid]
  by_cases h : oper = Config.opRequest <;> simp [supportedMessage, h]

/-- The state in which the reply to a frame is about to be encoded and written: every register up to `RPL` holds
its value (R28). -/
def replyReady (f : EthernetFrame) (m r : ArpMessage) (s : State) : State :=
  setPhase .encodeAndWrite (setRpl r (setArp m (setEth f s)))

/-! The frame classes (R84), each in full, where a frame can be taken: what its instruction answers. -/

section
variable {s : State} (h : s.phase ≠ .halted) (hp : s.port = .idle) (dst src : HA)
include h hp

theorem exec_frameRunt {b : List Byte} (hb : b.length < 14) :
    exec (.frameRunt b) s = .next (endCycle .dropEthTooShort s) := by
  rw [exec, execFrameRunt, withFrame_run h hp, decodeEthernetOn_short s hb]

theorem exec_frameOther {etype : U16} (he : etype ≠ Config.ethertypeArp) (p : List Byte) :
    exec (.frameOther dst src etype p) s = .next (endCycle .dropEthertype s) := by
  rw [exec, execFrameOther, withFrame_run h hp, throughClassify_other dst src p s he]

theorem exec_arpShortHdr {p : List Byte} (hl : p.length < 8) :
    exec (.arpShortHdr dst src p) s = .next (endCycle .dropArpTooShort s) := by
  rw [exec, execArpShortHdr, withFrame_run h hp, throughDecodeArp_raise (decodeArp_short hl)]
  rfl

theorem exec_arpUnsupported {p : List Byte} (hl : 8 ≤ p.length) (hg : p.take 6 ≠ gateBytes) :
    exec (.arpUnsupported dst src p) s = .next (endCycle .dropArpUnsupported s) := by
  rw [exec, execArpUnsupported, withFrame_run h hp, throughDecodeArp_raise (decodeArp_unsupported hl hg)]
  rfl

theorem exec_arpShortBody (oper : U16) {rest : List Byte} (hl : rest.length < 20) :
    exec (.arpShortBody dst src oper rest) s = .next (endCycle .dropArpTooShort s) := by
  rw [exec, execArpShortBody, withFrame_run h hp, arpShortBytes,
    throughDecodeArp_raise (decodeArp_arpFixedBytes_short hl)]
  rfl

variable (sha : HA) (spa : PA) (tha : HA) (tpa : PA) (tail : List Byte)

/-- Classes 7 and 8: what asks for no reply is dropped in `Respond` (R155). -/
theorem throughRespond_noReply {oper : U16} (ho : oper ≠ Config.opRequest) :
    withFrame s (throughRespond (arpFrameBytes dst src oper sha spa tha tpa tail)) =
      .next (endCycle .dropNoReply s) := by
  rw [withFrame_run h hp, arpFrameBytes, throughRespond_raise (decodeArp_arpBytes oper sha spa tha tpa tail)
    ((handle_supportedMessage ..).trans (if_neg ho))]

theorem exec_arpReply :
    exec (.arpReply dst src sha spa tha tpa tail) s = .next (endCycle .dropNoReply s) :=
  throughRespond_noReply h hp dst src sha spa tha tpa tail (by decide)

theorem exec_arpOtherOp {oper : U16} (ho : oper ≠ Config.opRequest) :
    exec (.arpOtherOp dst src oper sha spa tha tpa tail) s = .next (endCycle .dropNoReply s) :=
  throughRespond_noReply h hp dst src sha spa tha tpa tail ho

/-- Class 6: with the reply computed, it is encoded and written (R156). -/
theorem exec_arpRequest :
    exec (.arpRequest dst src sha spa tha tpa tail) s =
      phaseEncodeAndWrite (replyReady
        ⟨dst, src, Config.ethertypeArp, arpBytes Config.opRequest sha spa tha tpa ++ tail⟩
        (supportedMessage Config.opRequest sha spa tha tpa)
        (replyTo (supportedMessage Config.opRequest sha spa tha tpa) s.localHA) s) := by
  rw [exec, execArpRequest, withFrame_run h hp, arpFrameBytes,
    throughRespond_ok (decodeArp_arpBytes Config.opRequest sha spa tha tpa tail)
      ((handle_supportedMessage ..).trans (if_pos rfl)), andThen_next, replyReady]

end

/-- R84: a frame's instruction, run with that frame, ends the cycle with a drop (R183), or passes every phase but the
last and encodes and writes the reply. It stops nowhere between. -/
theorem exec_decodeFrame_cases {b : List Byte} {s : State} (h : s.phase ≠ .halted) (hp : s.port = .idle) :
    (∃ c, exec (decodeFrame b) s = .next (endCycle c s)) ∨
    ∃ f m r, f.payload.length + 14 = b.length ∧ handle m s.localHA s.localPA = .ok r ∧
      exec (decodeFrame b) s = phaseEncodeAndWrite (replyReady f m r s) := by
  unfold decodeFrame
  split
  · exact .inl ⟨_, exec_frameRunt h hp ‹_›⟩
  split
  · exact .inl ⟨_, exec_frameOther h hp _ _ ‹_› _⟩
  split
  · exact .inl ⟨_, exec_arpShortHdr h hp _ _ (by simp [fromOffset]; omega)⟩
  split
  · exact .inl ⟨_, exec_arpUnsupported h hp _ _ (by simp [fromOffset]; omega) ‹_›⟩
  split
  · exact .inl ⟨_, exec_arpShortBody h hp _ _ _ (by simp [fromOffset]; omega)⟩
  dsimp only [decodeMessage]
  split
  · exact .inr ⟨_, _, _, by simp [fromOffset]; omega, (handle_supportedMessage ..).trans (if_pos rfl),
      exec_arpRequest h hp ..⟩
  split
  · exact .inl ⟨_, exec_arpReply h hp ..⟩
  · exact .inl ⟨_, exec_arpOtherOp h hp _ _ _ _ _ _ _ ‹_›⟩

end Sys2Proof.Machine
end

section
/-! PROOFS. The invariant of the core (10_state.md R22 to R28): what it says in each phase, and that every phase and
every step keeps it and stops only where the device breaks R161. -/

namespace Sys2Proof.Machine

/-! What the invariant says, phase by phase (R22 to R28). -/

theorem phaseInv_readFrame {s : State} (h : s.phase = .readFrame) :
    phaseInv s = true ↔ workingClear s = true ∧ (s.port = .idle ∨ s.port = .reading) := by
  simp [phaseInv, h]

theorem phaseInv_decodeEthernet {s : State} (h : s.phase = .decodeEthernet) :
    phaseInv s = true ↔ frameInHand s = true ∧ s.eth = none ∧ s.arp = none ∧ s.rpl = none ∧ txClear s = true ∧
      s.port = .idle := by
  simp [phaseInv, h, and_assoc]

theorem phaseInv_classify {s : State} (h : s.phase = .classify) :
    phaseInv s = true ↔ frameInHand s = true ∧ ethValid s = true ∧ s.arp = none ∧ s.rpl = none ∧ txClear s = true ∧
      s.port = .idle := by
  simp [phaseInv, h, and_assoc]

theorem phaseInv_decodeArp {s : State} (h : s.phase = .decodeArp) :
    phaseInv s = true ↔ frameInHand s = true ∧ ethValid s = true ∧ s.arp = none ∧ s.rpl = none ∧ txClear s = true ∧
      s.port = .idle := by
  simp [phaseInv, h, and_assoc]

theorem phaseInv_respond {s : State} (h : s.phase = .respond) :
    phaseInv s = true ↔ frameInHand s = true ∧ ethValid s = true ∧ arpHeldValid s = true ∧ s.rpl = none ∧
      txClear s = true ∧ s.port = .idle := by
  simp [phaseInv, h, and_assoc]

theorem phaseInv_encodeAndWrite {s : State} (h : s.phase = .encodeAndWrite) :
    phaseInv s = true ↔ frameInHand s = true ∧ ethValid s = true ∧ replyHeld s = true ∧
      (s.port = .idle ∧ txClear s = true ∨
        ∃ b, s.port = .writing b ∧ txLoaded s = true ∧ bufLoad s.txbuf 0 Config.txFrameLen = some b ∧
          replyWritten b s = true) := by
  cases hp : s.port <;> simp [phaseInv, h, hp, and_assoc]

theorem phaseInv_halted {s : State} (h : s.phase = .halted) :
    phaseInv s = true ↔ workingClear s = true ∧ s.port = .idle := by
  simp [phaseInv, h]

theorem workingClear_iff {s : State} :
    workingClear s = true ↔ s.rxbuf = [] ∧ s.rxlen = none ∧ s.eth = none ∧ s.arp = none ∧ s.rpl = none ∧
      s.txbuf = [] ∧ s.txlen = none := by
  simp [workingClear, and_assoc]

theorem txClear_iff {s : State} : txClear s = true ↔ s.txbuf = [] ∧ s.txlen = none := by simp [txClear]

theorem ethValid_iff {s : State} :
    ethValid s = true ↔ ∃ f, s.eth = some f ∧ s.rxlen = some (f.payload.length + 14) := by
  unfold ethValid
  split <;> simp_all [eq_comm]

theorem arpHeldValid_iff {s : State} : arpHeldValid s = true ↔ ∃ m, s.arp = some m ∧ validArp m = true := by
  unfold arpHeldValid
  split <;> simp_all

theorem replyHeld_iff {s : State} :
    replyHeld s = true ↔ ∃ m r, s.arp = some m ∧ s.rpl = some r ∧ handle m s.localHA s.localPA = .ok r := by
  unfold replyHeld
  split <;> simp_all

theorem replyWritten_iff {s : State} {b : List Byte} {m r : ArpMessage} (hm : s.arp = some m) (hr : s.rpl = some r) :
    replyWritten b s = true ↔ encodeEthernet (wrapReply m r s.localHA) = b := by
  simp [replyWritten, hm, hr]

/-- A written reply has 42 bytes (R7). -/
theorem replyWritten_length {s : State} {b : List Byte} (h : replyWritten b s = true) :
    b.length = Config.txFrameLen := by
  unfold replyWritten at h
  split at h
  · rw [← of_decide_eq_true h]; exact wrapReply_length ..
  · cases h

theorem holdsExactly_bufCapture (b : List Byte) : holdsExactly (bufCapture b) b.length = true := by
  simp [holdsExactly, bufCapture_addresses]

/-- A frame in hand can be read, and it fits the receive buffer (R51, R53). -/
theorem heldFrame_of_frameInHand {s : State} (h : frameInHand s = true) :
    ∃ b, heldFrame s = .ok b ∧ s.rxlen = some b.length ∧ Config.fitsBuffer b.length = true := by
  unfold frameInHand at h
  split at h
  · rename_i n hn
    obtain ⟨hx, hfit⟩ := Bool.and_eq_true_iff.1 h
    have ha : s.rxbuf.map Prod.fst = List.range n := by simpa [holdsExactly] using hx
    obtain ⟨b, hb, hl⟩ := bufLoad_isSome (m := s.rxbuf) (off := 0) (n := n) fun a _ h2 =>
      bufByte_isSome_iff.2 (ha ▸ List.mem_range.2 (by omega))
    exact ⟨b, by simp [heldFrame, hn, memRead, spaceLen, spaceMem, hb], hl ▸ hn, hl ▸ hfit⟩
  · cases h

/-- With a frame in hand the instruction run is the frame's (D1, R84). -/
theorem runHeld_of_heldFrame {s : State} {b : List Byte} (run : Instr → State → Out) (h : heldFrame s = .ok b)
    (hfit : Config.fitsBuffer b.length = true) : runHeld run s = run (decodeFrame b) s := by
  simp [runHeld, fetchHeld, h, decode, hfit]

/-! The states the phases lead to meet the invariant. -/

/-- The end of a cycle meets the invariant, whatever the registers held (R183, R187). -/
theorem inv_endCycle {s : State} (c : OutcomeCode) (hp : s.port = .idle) : Inv (endCycle c s) :=
  ⟨rfl, rfl, (phaseInv_readFrame rfl).2 ⟨rfl, .inl hp⟩⟩

/-- So does the halted core (R185). -/
theorem inv_halt {s : State} (hp : s.port = .idle) : Inv (halt s) := ⟨rfl, rfl, (phaseInv_halted rfl).2 ⟨rfl, hp⟩⟩

/-- A frame captured on an idle port, with no other register written, is a frame in hand (R151). -/
theorem inv_captured {s : State} {b : List Byte} (hc : workingClear s = true) (hp : s.port = .idle)
    (hl : b.length ≤ Config.maxLen) : Inv (setPhase .decodeEthernet (captureFrame b s)) := by
  obtain ⟨-, -, he, ha, hr, hb, ht⟩ := workingClear_iff.1 hc
  have hf : frameInHand (captureFrame b s) = true := by
    simp [frameInHand, holdsExactly_bufCapture, (fitsBuffer_iff _).2 hl]
  exact ⟨bufCapture_wf b, congrArg Memory.wf hb,
    (phaseInv_decodeEthernet rfl).2 ⟨hf, he, ha, hr, txClear_iff.2 ⟨hb, ht⟩, hp⟩⟩

/-- Loading `TXBUF` and issuing the write touch different fields. -/
theorem startWrite_loadTx (b t : List Byte) (s : State) : startWrite b (loadTx t s) = loadTx t (startWrite b s) := rfl

/-- What is loaded into `TXBUF` is held there, with its length in `TXLEN` (R26). -/
theorem txLoaded_loadTx {t : List Byte} (ht : t.length = Config.txFrameLen) (s : State) :
    txLoaded (loadTx t s) = true := by
  simp [txLoaded, ← ht, holdsExactly_bufCapture]

/-- With the reply's write in flight and `TXBUF` loaded with it, the invariant holds (R26, R156). -/
theorem inv_loadTx {s : State} {t : List Byte} (hrx : Memory.wf s.rxbuf = true) (hph : s.phase = .encodeAndWrite)
    (hf : frameInHand s = true) (he : ethValid s = true) (hh : replyHeld s = true) (hp : s.port = .writing t)
    (hw : replyWritten t s = true) : Inv (loadTx t s) := by
  have hlen : t.length = Config.txFrameLen := replyWritten_length hw
  have hload : bufLoad (bufCapture t) 0 Config.txFrameLen = some t := hlen ▸ bufLoad_bufCapture_all t
  exact ⟨hrx, bufCapture_wf t,
    (phaseInv_encodeAndWrite (s := loadTx t s) hph).2 ⟨hf, he, hh, .inr ⟨t, hp, txLoaded_loadTx hlen s, hload, hw⟩⟩⟩

/-! ### What a phase and a step answer from a state that meets the invariant -/

/-- The outcome is a next state that meets the invariant, in which no answer to a read stands that did not stand
in `s`. -/
def GoesOn (s : State) (o : Out) : Prop := ∃ t, o = .next t ∧ Inv t ∧ t.rxAnswers <:+ s.rxAnswers

theorem GoesOn.next {s t : State} (h : Inv t) (hr : t.rxAnswers <:+ s.rxAnswers) : GoesOn s (.next t) := ⟨t, rfl, h, hr⟩

theorem GoesOn.of_suffix {s u : State} {o : Out} (h : GoesOn u o) (hr : u.rxAnswers <:+ s.rxAnswers) : GoesOn s o := by
  obtain ⟨t, ho, hi, ht⟩ := h
  exact ⟨t, ho, hi, ht.trans hr⟩

theorem GoesOn.andThen {s : State} {o : Out} {k : State → Out} (h : GoesOn s o) (hk : ∀ t, Inv t → GoesOn t (k t)) :
    GoesOn s (andThen o k) := by
  obtain ⟨t, rfl, ht, hr⟩ := h
  exact (hk t ht).of_suffix hr

theorem goesOn_endCycle {s : State} (c : OutcomeCode) (hp : s.port = .idle) : GoesOn s (.next (endCycle c s)) :=
  .next (inv_endCycle c hp) List.suffix_rfl

/-- The device's answer to the read in flight is one R161 rules out, and the outcome is the fault that names its
length (log entry 8). -/
def StopsOverlong (s : State) (o : Out) : Prop :=
  ∃ a rest, s.rxAnswers = a :: rest ∧ Config.maxLen < answerLength a ∧
    o = .fault (.frameOverCapacity (answerLength a))

section
variable {s : State} (h : Inv s)
include h

/-- R151: a frame captured, a halt or a wait; only an over-long answer stops the phase. -/
theorem phaseReadFrame_goesOn (hph : s.phase = .readFrame) :
    GoesOn s (phaseReadFrame s) ∨ StopsOverlong s (phaseReadFrame s) := by
  have ⟨hrx, htx, hi⟩ := h
  obtain ⟨hc, hp⟩ := (phaseInv_readFrame hph).1 hi
  rcases hr : s.rxAnswers with _ | ⟨a, rest⟩
  · left
    rcases hp with hp | hp
    · simp only [phaseReadFrame, readTransaction_idle_blocked hp hr]
      exact .next ⟨hrx, htx, (phaseInv_readFrame (s := startRead _ s) hph).2 ⟨hc, .inr rfl⟩⟩ List.suffix_rfl
    · simp only [phaseReadFrame, readTransaction_reading_blocked hp hr]
      exact .next h List.suffix_rfl
  · by_cases hl : answerLength a ≤ Config.maxLen
    · left
      have hs : rest <:+ s.rxAnswers := hr ▸ List.suffix_cons a rest
      cases a with
      | frame b =>
        simp only [phaseReadFrame, readTransaction_answered hp hr hl]
        exact .next (inv_captured hc rfl hl) hs
      | failure =>
        simp only [phaseReadFrame, readTransaction_answered hp hr hl]
        exact .next (inv_halt rfl) hs
    · right
      refine ⟨a, rest, hr, by omega, ?_⟩
      simp only [phaseReadFrame, readTransaction_overlong hp hr (by omega : Config.maxLen < answerLength a)]

/-- R152: the frame in hand is decoded or dropped. -/
theorem phaseDecodeEthernet_goesOn (hph : s.phase = .decodeEthernet) : GoesOn s (phaseDecodeEthernet s) := by
  obtain ⟨hrx, htx, hi⟩ := h
  obtain ⟨hf, -, ha, hr, ht, hp⟩ := (phaseInv_decodeEthernet hph).1 hi
  obtain ⟨b, hb, hlen, -⟩ := heldFrame_of_frameInHand hf
  simp only [phaseDecodeEthernet, hb]
  cases hd : decodeEthernet b with
  | raise e => simp only [decodeEthernetOn, hd]; exact goesOn_endCycle _ hp
  | ok f =>
    rw [decodeEthernetOn_ok s hd]
    have he : ethValid (setEth f s) = true := ethValid_iff.2 ⟨f, rfl, decodeEthernet_ok_length hd ▸ hlen⟩
    exact .next ⟨hrx, htx, (phaseInv_classify rfl).2 ⟨hf, he, ha, hr, ht, hp⟩⟩ List.suffix_rfl

/-- R153: the ethertype is tested. -/
theorem phaseClassify_goesOn (hph : s.phase = .classify) : GoesOn s (phaseClassify s) := by
  obtain ⟨hrx, htx, hi⟩ := h
  obtain ⟨hf, he, ha, hr, ht, hp⟩ := (phaseInv_classify hph).1 hi
  obtain ⟨f, heth, -⟩ := ethValid_iff.1 he
  rw [phaseClassify_some heth]
  split
  · exact .next ⟨hrx, htx, (phaseInv_decodeArp rfl).2 ⟨hf, he, ha, hr, ht, hp⟩⟩ List.suffix_rfl
  · exact goesOn_endCycle _ hp

/-- R154: the message is decoded, and then it is valid, or dropped. -/
theorem phaseDecodeArp_goesOn (hph : s.phase = .decodeArp) : GoesOn s (phaseDecodeArp s) := by
  obtain ⟨hrx, htx, hi⟩ := h
  obtain ⟨hf, he, -, hr, ht, hp⟩ := (phaseInv_decodeArp hph).1 hi
  obtain ⟨f, heth, -⟩ := ethValid_iff.1 he
  cases hd : decodeArp f.payload with
  | raise e => rw [phaseDecodeArp_raise heth hd]; exact goesOn_endCycle _ hp
  | ok m =>
    rw [phaseDecodeArp_ok heth hd]
    have ha : arpHeldValid (setArp m s) = true := arpHeldValid_iff.2 ⟨m, rfl, decodeArp_ok_valid hd⟩
    exact .next ⟨hrx, htx, (phaseInv_respond rfl).2 ⟨hf, he, ha, hr, ht, hp⟩⟩ List.suffix_rfl

/-- R155: the reply is computed, or the message dropped. -/
theorem phaseRespond_goesOn (hph : s.phase = .respond) : GoesOn s (phaseRespond s) := by
  obtain ⟨hrx, htx, hi⟩ := h
  obtain ⟨hf, he, ha, -, ht, hp⟩ := (phaseInv_respond hph).1 hi
  obtain ⟨m, hm, -⟩ := arpHeldValid_iff.1 ha
  cases hd : handle m s.localHA s.localPA with
  | raise e => rw [phaseRespond_raise hm hd]; exact goesOn_endCycle _ hp
  | ok r =>
    rw [phaseRespond_ok hm hd]
    have hh : replyHeld (setRpl r s) = true := replyHeld_iff.2 ⟨m, r, hm, rfl, hd⟩
    exact .next ⟨hrx, htx, (phaseInv_encodeAndWrite rfl).2 ⟨hf, he, hh, .inl ⟨hp, ht⟩⟩⟩ List.suffix_rfl

/-- R156, R224: with a write in flight, the wait for its answer and the end of the cycle. -/
theorem finishWrite_goesOn : GoesOn s (finishWrite s) := by
  cases hw : s.wrAnswers with
  | nil => rw [finishWrite_nil hw]; exact .next h List.suffix_rfl
  | cons a rest => rw [finishWrite_cons hw]; exact .next (inv_endCycle _ rfl) List.suffix_rfl

/-- R156: the reply is written, once; with its write in flight, the answer is awaited. -/
theorem phaseEncodeAndWrite_goesOn (hph : s.phase = .encodeAndWrite) : GoesOn s (phaseEncodeAndWrite s) := by
  obtain ⟨hrx, -, hi⟩ := h
  obtain ⟨hf, he, hh, hport⟩ := (phaseInv_encodeAndWrite hph).1 hi
  obtain ⟨m, r, hm, hr, hd⟩ := replyHeld_iff.1 hh
  rcases hport with ⟨hp, -⟩ | ⟨b, hp, -, -, hb⟩
  · rw [phaseEncodeAndWrite_idle hp hm hr, startWrite_loadTx]
    generalize ht : encodeEthernet (wrapReply m r s.localHA) = t
    have hw : replyWritten t (startWrite t s) = true := (replyWritten_iff hm hr).2 ht
    exact (finishWrite_goesOn (inv_loadTx (s := startWrite t s) hrx hph hf he hh rfl hw)).of_suffix List.suffix_rfl
  · have ht := (replyWritten_iff hm hr).1 hb
    rw [phaseEncodeAndWrite_writing hm hr (ht ▸ hp), ht]
    exact (finishWrite_goesOn (inv_loadTx hrx hph hf he hh hp hb)).of_suffix List.suffix_rfl

/-- R150: from a state that meets the invariant a phase goes on, or the device has broken R161. -/
theorem phaseStep_goesOn : GoesOn s (phaseStep s) ∨ s.phase = .readFrame ∧ StopsOverlong s (phaseStep s) := by
  cases hph : s.phase with
  | readFrame => rw [phaseStep_readFrame hph]; simpa using phaseReadFrame_goesOn h hph
  | decodeEthernet => rw [phaseStep_decodeEthernet hph]; exact .inl (phaseDecodeEthernet_goesOn h hph)
  | classify => rw [phaseStep_classify hph]; exact .inl (phaseClassify_goesOn h hph)
  | decodeArp => rw [phaseStep_decodeArp hph]; exact .inl (phaseDecodeArp_goesOn h hph)
  | respond => rw [phaseStep_respond hph]; exact .inl (phaseRespond_goesOn h hph)
  | encodeAndWrite => rw [phaseStep_encodeAndWrite hph]; exact .inl (phaseEncodeAndWrite_goesOn h hph)
  | halted => rw [phaseStep_halted hph]; exact .inl (.next h List.suffix_rfl)

/-- The instruction of the frame in hand drops the frame or writes the reply (R84, R158). -/
theorem runHeld_goesOn (hph : s.phase = .decodeEthernet) : GoesOn s (runHeld exec s) := by
  obtain ⟨hrx, htx, hi⟩ := h
  obtain ⟨hf, -, -, -, ht, hp⟩ := (phaseInv_decodeEthernet hph).1 hi
  obtain ⟨b, hb, hlen, hfit⟩ := heldFrame_of_frameInHand hf
  rw [runHeld_of_heldFrame exec hb hfit]
  rcases exec_decodeFrame_cases (b := b) (by simp [hph]) hp with ⟨c, hc⟩ | ⟨f, m, r, hl, hd, hc⟩
  · rw [hc]; exact goesOn_endCycle c hp
  · rw [hc]
    have he : ethValid (replyReady f m r s) = true := ethValid_iff.2 ⟨f, rfl, hl ▸ hlen⟩
    have hh : replyHeld (replyReady f m r s) = true := replyHeld_iff.2 ⟨m, r, rfl, rfl, hd⟩
    have hr : Inv (replyReady f m r s) :=
      ⟨hrx, htx, (phaseInv_encodeAndWrite rfl).2 ⟨hf, he, hh, .inl ⟨hp, ht⟩⟩⟩
    exact (phaseEncodeAndWrite_goesOn hr rfl).of_suffix List.suffix_rfl

/-- With a frame in hand its instruction goes on; without one the step ends where it is. -/
theorem afterRead_goesOn : GoesOn s (afterRead s) := by
  cases hph : s.phase with
  | decodeEthernet => simpa [afterRead, hph] using runHeld_goesOn h hph
  | _ => simpa [afterRead, hph] using GoesOn.next h List.suffix_rfl

/-- R158: from a state that meets the invariant a step goes on, or the device has broken R161. -/
theorem step_goesOn : GoesOn s (step s) ∨ StopsOverlong s (step s) := by
  cases hph : s.phase with
  | readFrame =>
    simp only [step, hph]
    rcases phaseReadFrame_goesOn h hph with hg | ⟨a, rest, hr, hl, ho⟩
    · exact .inl (hg.andThen fun _ => afterRead_goesOn)
    · exact .inr ⟨a, rest, hr, hl, by rw [ho, andThen_fault]⟩
  | decodeEthernet => simp only [step, hph]; exact .inl (runHeld_goesOn h hph)
  | classify | decodeArp | respond | encodeAndWrite | halted =>
    simp only [step, hph]
    exact (phaseStep_goesOn h).imp_right And.right

end

/-- Settles O46: from a state that meets the invariant a step goes on to one that does, or it stops. -/
theorem stepKeepsTheInvariant : Obligations.StepKeepsTheInvariant := by
  intro s t h hstep
  rcases step_goesOn h with ⟨u, hu, hi, -⟩ | ⟨a, rest, -, -, hf⟩
  · rw [hstep] at hu
    cases hu
    exact hi
  · rw [hstep] at hf
    cases hf

/-- Settles O48: the one way a step can stop is an answer that a lawful device does not give, and no answer is
added. -/
theorem noStepStops : Obligations.NoStepStops := by
  intro s h hd
  rcases step_goesOn h with ⟨t, ht, hi, hr⟩ | ⟨a, rest, hr, hl, -⟩
  · exact ⟨t, ht, hi, fun a ha => hd a (hr.subset ha)⟩
  · exact absurd (hd a (by simp [hr])) (by omega)

end Sys2Proof.Machine
end

section
/-! PROOFS. The named operations that only return a value (R11, R29), and the local identity, which nothing changes
(R21, R222). -/

namespace Sys2Proof.Machine

/-! ### The named operations (R88) -/

/-- A functional unit changes the returned value alone, and in `Halted` nothing (R11, R157). -/
theorem returnValue_cases (r : Tagged Value) (s : State) :
    returnValue r s = .next s ∨ returnValue r s = .next (setRet r s) := by
  by_cases h : s.phase = .halted
  · exact .inl (returnValue_halted h)
  · exact .inr (returnValue_run h)

/-- The meaning of every named operation but the two transactions is a value to return, the same in every state. -/
theorem exec_eq_returnValue {i : Instr} (hc : classOf i = none) (hr : ∀ n, i ≠ .readFrame n)
    (hw : ∀ b, i ≠ .writeFrame b) : ∃ r, ∀ s, exec i s = returnValue r s := by
  cases i with
  | frameRunt | arpRequest | arpReply | arpOtherOp | arpShortBody | arpUnsupported | arpShortHdr | frameOther =>
    exact nomatch hc
  | readFrame n => exact absurd rfl (hr n)
  | writeFrame b => exact absurd rfl (hw b)
  | _ => exact ⟨_, fun _ => rfl⟩

/-- Settles O56: such an operation returns a value, and that is all it does. -/
theorem pureOperationsTouchNothing : Obligations.PureOperationsTouchNothing := by
  intro i s hc hr hw
  obtain ⟨r, hi⟩ := exec_eq_returnValue hc hr hw
  rcases returnValue_cases r s with h | h
  · exact ⟨s, (hi s).trans h, rfl⟩
  · exact ⟨setRet r s, (hi s).trans h, rfl⟩

/-! ### The local identity (R21, R222) -/

/-- The two states have one local identity. -/
abbrev SameIdentity (s t : State) : Prop := t.localHA = s.localHA ∧ t.localPA = s.localPA

theorem SameIdentity.trans {s u t : State} (h : SameIdentity s u) (h' : SameIdentity u t) : SameIdentity s t :=
  ⟨h'.1.trans h.1, h'.2.trans h.2⟩

/-- Whatever next state the operation answers has the local identity of the state it started from. -/
def KeepsIdentity (k : State → Out) : Prop := ∀ s t, k s = .next t → SameIdentity s t

theorem KeepsIdentity.andThen {k l : State → Out} (hk : KeepsIdentity k) (hl : KeepsIdentity l) :
    KeepsIdentity fun s => andThen (k s) l := by
  intro s t h
  obtain ⟨u, hu, ht⟩ := andThen_eq_next h
  exact (hk s u hu).trans (hl u t ht)

theorem KeepsIdentity.unlessHalted {k : State → Out} (hk : KeepsIdentity k) :
    KeepsIdentity fun s => unlessHalted s k := by
  intro s t h
  by_cases hh : s.phase = .halted
  · cases (unlessHalted_halted hh).symm.trans h
    exact ⟨rfl, rfl⟩
  · exact hk s t ((unlessHalted_run hh).symm.trans h)

theorem KeepsIdentity.withFrame {k : State → Out} (hk : KeepsIdentity k) : KeepsIdentity fun s => withFrame s k := by
  intro s t h
  rcases withFrame_cases s k with ⟨-, hw⟩ | ⟨-, -, hw⟩ | ⟨-, -, hw⟩
  · cases hw.symm.trans h
    exact ⟨rfl, rfl⟩
  · cases hw.symm.trans h
  · exact hk s t (hw.symm.trans h)

theorem keepsIdentity_returnValue (r : Tagged Value) : KeepsIdentity (returnValue r) := by
  intro s t h
  rcases returnValue_cases r s with hr | hr <;> (rw [hr] at h; cases h; exact ⟨rfl, rfl⟩)

theorem readTransaction_identity {n : Nat} {s t : State} {a : Option ReadAnswer}
    (h : readTransaction n s = .ok (a, t)) : SameIdentity s t := by
  rcases readTransaction_cases n s with ⟨_, _, ho⟩ | ⟨_, _, ho⟩ | ⟨_, _, ho⟩ | ⟨_, _, _, _, ho⟩ |
    ⟨_, _, _, _, ⟨_, ho⟩ | ⟨_, ho⟩⟩ <;> (rw [ho] at h; cases h) <;> exact ⟨rfl, rfl⟩

theorem awaitWrite_identity (s : State) : SameIdentity s (awaitWrite s).2 := by
  cases h : s.wrAnswers with
  | nil => rw [awaitWrite_nil h]; exact ⟨rfl, rfl⟩
  | cons a rest => rw [awaitWrite_cons h]; exact ⟨rfl, rfl⟩

theorem issueWrite_identity {b : List Byte} {s t : State} (h : issueWrite b s = .ok t) : SameIdentity s t := by
  unfold issueWrite at h
  split at h
  · cases h; exact ⟨rfl, rfl⟩
  · cases h
  · split at h <;> cases h
    exact ⟨rfl, rfl⟩

theorem writeTransaction_identity {b : List Byte} {s t : State} {a : Option WriteAnswer}
    (h : writeTransaction b s = .ok (a, t)) : SameIdentity s t := by
  unfold writeTransaction at h
  split at h
  · cases h
  · rename_i u hu
    obtain rfl : (awaitWrite u).2 = t := congrArg Prod.snd (Except.ok.inj h)
    exact (issueWrite_identity hu).trans (awaitWrite_identity u)

theorem keepsIdentity_execReadFrame (n : Nat) : KeepsIdentity (execReadFrame n) := by
  refine KeepsIdentity.unlessHalted fun s t h => ?_
  cases hr : readTransaction n s with
  | error f => rw [hr] at h; cases h
  | ok p =>
    obtain ⟨a, u⟩ := p
    have hu : SameIdentity s u := readTransaction_identity hr
    rw [hr] at h
    cases a with
    | none => cases h; exact hu
    | some a =>
      dsimp only at h
      split at h
      · cases h; exact hu
      · cases h

theorem keepsIdentity_execWriteFrame (b : List Byte) : KeepsIdentity (execWriteFrame b) := by
  refine KeepsIdentity.unlessHalted fun s t h => ?_
  cases hr : writeTransaction b s with
  | error f => rw [hr] at h; cases h
  | ok p =>
    obtain ⟨a, u⟩ := p
    have hu : SameIdentity s u := writeTransaction_identity hr
    rw [hr] at h
    cases a <;> (cases h; exact hu)

theorem keepsIdentity_phaseReadFrame : KeepsIdentity phaseReadFrame := by
  intro s t h
  unfold phaseReadFrame at h
  cases hr : readTransaction Config.maxLen s with
  | error f => rw [hr] at h; cases h
  | ok p =>
    obtain ⟨a, u⟩ := p
    have hu : SameIdentity s u := readTransaction_identity hr
    rw [hr] at h
    rcases a with _ | (b | _) <;> (cases h; exact hu)

theorem keepsIdentity_decodeEthernetOn (b : List Byte) : KeepsIdentity (decodeEthernetOn b) := by
  intro s t h
  unfold decodeEthernetOn at h
  split at h <;> cases h <;> exact ⟨rfl, rfl⟩

theorem keepsIdentity_phaseDecodeEthernet : KeepsIdentity phaseDecodeEthernet := by
  intro s t h
  unfold phaseDecodeEthernet at h
  split at h
  · cases h
  · exact keepsIdentity_decodeEthernetOn _ s t h

theorem keepsIdentity_phaseClassify : KeepsIdentity phaseClassify := by
  intro s t h
  unfold phaseClassify at h
  split at h
  · cases h
  · split at h <;> cases h <;> exact ⟨rfl, rfl⟩

theorem keepsIdentity_phaseDecodeArp : KeepsIdentity phaseDecodeArp := by
  intro s t h
  unfold phaseDecodeArp at h
  split at h
  · cases h
  · split at h <;> cases h <;> exact ⟨rfl, rfl⟩

theorem keepsIdentity_phaseRespond : KeepsIdentity phaseRespond := by
  intro s t h
  unfold phaseRespond at h
  split at h
  · cases h
  · split at h <;> cases h <;> exact ⟨rfl, rfl⟩

theorem keepsIdentity_finishWrite : KeepsIdentity finishWrite := by
  intro s t h
  cases hw : s.wrAnswers with
  | nil => rw [finishWrite_nil hw] at h; cases h; exact ⟨rfl, rfl⟩
  | cons a rest => rw [finishWrite_cons hw] at h; cases h; exact ⟨rfl, rfl⟩

theorem loadTx_identity (b : List Byte) (s : State) : SameIdentity s (loadTx b s) := ⟨rfl, rfl⟩

theorem keepsIdentity_sendTx : KeepsIdentity sendTx := by
  intro s t h
  unfold sendTx at h
  split at h
  · cases h
  · split at h
    · cases h
    · rename_i u hu
      exact (issueWrite_identity hu).trans (keepsIdentity_finishWrite u t h)

theorem keepsIdentity_phaseEncodeAndWrite : KeepsIdentity phaseEncodeAndWrite := by
  intro s t h
  unfold phaseEncodeAndWrite at h
  split at h
  · cases h
  · cases h
  · exact (loadTx_identity _ s).trans (keepsIdentity_sendTx _ t h)

theorem keepsIdentity_phaseStep : KeepsIdentity phaseStep := by
  intro s t h
  cases hph : s.phase with
  | readFrame => exact keepsIdentity_phaseReadFrame s t (phaseStep_readFrame hph ▸ h)
  | decodeEthernet => exact keepsIdentity_phaseDecodeEthernet s t (phaseStep_decodeEthernet hph ▸ h)
  | classify => exact keepsIdentity_phaseClassify s t (phaseStep_classify hph ▸ h)
  | decodeArp => exact keepsIdentity_phaseDecodeArp s t (phaseStep_decodeArp hph ▸ h)
  | respond => exact keepsIdentity_phaseRespond s t (phaseStep_respond hph ▸ h)
  | encodeAndWrite => exact keepsIdentity_phaseEncodeAndWrite s t (phaseStep_encodeAndWrite hph ▸ h)
  | halted => cases (phaseStep_halted hph).symm.trans h; exact ⟨rfl, rfl⟩

theorem keepsIdentity_throughClassify (b : List Byte) : KeepsIdentity (throughClassify b) :=
  (keepsIdentity_decodeEthernetOn b).andThen keepsIdentity_phaseClassify

theorem keepsIdentity_throughDecodeArp (b : List Byte) : KeepsIdentity (throughDecodeArp b) :=
  (keepsIdentity_throughClassify b).andThen keepsIdentity_phaseDecodeArp

theorem keepsIdentity_throughRespond (b : List Byte) : KeepsIdentity (throughRespond b) :=
  (keepsIdentity_throughDecodeArp b).andThen keepsIdentity_phaseRespond

theorem keepsIdentity_exec (i : Instr) : KeepsIdentity (exec i) := by
  cases i with
  | frameRunt => exact (keepsIdentity_decodeEthernetOn _).withFrame
  | frameOther => exact (keepsIdentity_throughClassify _).withFrame
  | arpShortHdr | arpUnsupported | arpShortBody => exact (keepsIdentity_throughDecodeArp _).withFrame
  | arpReply | arpOtherOp => exact (keepsIdentity_throughRespond _).withFrame
  | arpRequest => exact ((keepsIdentity_throughRespond _).andThen keepsIdentity_phaseEncodeAndWrite).withFrame
  | readFrame n => exact keepsIdentity_execReadFrame n
  | writeFrame b => exact keepsIdentity_execWriteFrame b
  | _ => exact keepsIdentity_returnValue _

theorem keepsIdentity_runHeld : KeepsIdentity (runHeld exec) := by
  intro s t h
  unfold runHeld at h
  split at h
  · cases h
  · exact keepsIdentity_exec _ s t h

theorem keepsIdentity_afterRead : KeepsIdentity afterRead := by
  intro s t h
  unfold afterRead at h
  split at h
  · exact keepsIdentity_runHeld s t h
  all_goals cases h; exact ⟨rfl, rfl⟩

theorem keepsIdentity_step : KeepsIdentity step := by
  intro s t h
  unfold step at h
  split at h
  · exact keepsIdentity_phaseReadFrame.andThen keepsIdentity_afterRead s t h
  · exact keepsIdentity_runHeld s t h
  all_goals exact keepsIdentity_phaseStep s t h

/-- Settles O54, operation by operation. -/
theorem localIdentityIsConstant : Obligations.LocalIdentityIsConstant :=
  ⟨keepsIdentity_exec, keepsIdentity_phaseStep, keepsIdentity_step⟩

end Sys2Proof.Machine
end

section
/-! PROOFS. The returned value, which nothing reads (R30); reading a register without value (R27); the reset state
(R31, R210). -/

namespace Sys2Proof.Machine

/-! ### What a step says of the returned value (R30, log entry 4) -/

/-- The same state with another returned value. -/
def withRet (r : Option (Tagged Value)) (s : State) : State := { s with ret := r }

@[simp] theorem withRet_localHA (r : Option (Tagged Value)) (s : State) : (withRet r s).localHA = s.localHA := rfl
@[simp] theorem withRet_rxAnswers (r : Option (Tagged Value)) (s : State) :
    (withRet r s).rxAnswers = s.rxAnswers := rfl

theorem loadTx_withRet (t : List Byte) (r : Option (Tagged Value)) (s : State) :
    loadTx t (withRet r s) = withRet r (loadTx t s) := rfl

/-- The same outcome with another returned value in the next state, if there is one. -/
def outWithRet (r : Option (Tagged Value)) : Out → Out
  | .next t => .next (withRet r t)
  | .fault f => .fault f
  | .refused f => .refused f

@[simp] theorem outWithRet_next (r : Option (Tagged Value)) (t : State) :
    outWithRet r (.next t) = .next (withRet r t) := rfl
@[simp] theorem outWithRet_fault (r : Option (Tagged Value)) (f : Fault) : outWithRet r (.fault f) = .fault f := rfl

/-- The operation does not read the returned value, and carries it along. -/
def CarriesRet (k : State → Out) : Prop := ∀ r s, k (withRet r s) = outWithRet r (k s)

theorem CarriesRet.andThen {k l : State → Out} (hk : CarriesRet k) (hl : CarriesRet l) :
    CarriesRet fun s => andThen (k s) l := by
  intro r s
  show Machine.andThen (k (withRet r s)) l = outWithRet r (Machine.andThen (k s) l)
  rw [hk r s]
  cases k s with
  | next t => exact hl r t
  | fault f => rfl
  | refused f => rfl

theorem CarriesRet.withFrame {k : State → Out} (hk : CarriesRet k) : CarriesRet fun s => withFrame s k := by
  intro r s
  rcases withFrame_cases s k with ⟨hh, hw⟩ | ⟨hh, hp, hw⟩ | ⟨hh, hp, hw⟩
  · exact (unlessHalted_halted (s := withRet r s) hh).trans (congrArg (outWithRet r) hw.symm)
  · rcases withFrame_cases (withRet r s) k with ⟨h, -⟩ | ⟨-, -, h⟩ | ⟨-, h, -⟩
    · exact absurd h hh
    · exact h.trans (congrArg (outWithRet r) hw.symm)
    · exact absurd h hp
  · exact ((withFrame_run (s := withRet r s) hh hp).trans (hk r s)).trans (congrArg (outWithRet r) hw.symm)

theorem carriesRet_decodeEthernetOn (b : List Byte) : CarriesRet (decodeEthernetOn b) := by
  intro r s
  unfold decodeEthernetOn
  split <;> rfl

theorem carriesRet_phaseClassify : CarriesRet phaseClassify := by
  intro r s
  cases hf : s.eth with
  | none => simp [phaseClassify, withRet, hf]
  | some f =>
    rw [phaseClassify_some hf, phaseClassify_some (s := withRet r s) hf]
    split <;> rfl

theorem carriesRet_phaseDecodeArp : CarriesRet phaseDecodeArp := by
  intro r s
  cases hf : s.eth with
  | none => simp [phaseDecodeArp, withRet, hf]
  | some f =>
    cases hd : decodeArp f.payload with
    | ok m => rw [phaseDecodeArp_ok hf hd, phaseDecodeArp_ok (s := withRet r s) hf hd]; rfl
    | raise e => rw [phaseDecodeArp_raise hf hd, phaseDecodeArp_raise (s := withRet r s) hf hd]; rfl

theorem carriesRet_phaseRespond : CarriesRet phaseRespond := by
  intro r s
  cases hm : s.arp with
  | none => simp [phaseRespond, withRet, hm]
  | some m =>
    cases hd : handle m s.localHA s.localPA with
    | ok p => rw [phaseRespond_ok hm hd, phaseRespond_ok (s := withRet r s) hm hd]; rfl
    | raise e => rw [phaseRespond_raise hm hd, phaseRespond_raise (s := withRet r s) hm hd]; rfl

theorem carriesRet_finishWrite : CarriesRet finishWrite := by
  intro r s
  cases hw : s.wrAnswers with
  | nil => rw [finishWrite_nil hw, finishWrite_nil (s := withRet r s) hw]; rfl
  | cons a rest => rw [finishWrite_cons hw, finishWrite_cons (s := withRet r s) hw]; rfl

theorem issueWrite_withRet (b : List Byte) (r : Option (Tagged Value)) (s : State) :
    issueWrite b (withRet r s) = (issueWrite b s).map (withRet r) := by
  cases hp : s.port with
  | idle => simp [issueWrite, withRet, hp, Except.map, startWrite, record]
  | reading => simp [issueWrite, withRet, hp, Except.map]
  | writing b' =>
    by_cases hb : b' = b <;> simp [issueWrite, withRet, hp, hb, Except.map]

theorem carriesRet_sendTx : CarriesRet sendTx := by
  intro r s
  have hm : memRead .txbuf 0 Config.txFrameLen (withRet r s) = memRead .txbuf 0 Config.txFrameLen s := rfl
  simp only [sendTx, hm]
  cases memRead .txbuf 0 Config.txFrameLen s with
  | error f => rfl
  | ok t =>
    simp only [issueWrite_withRet]
    cases issueWrite t s with
    | error f => rfl
    | ok u => exact carriesRet_finishWrite r u

theorem carriesRet_phaseEncodeAndWrite : CarriesRet phaseEncodeAndWrite := by
  intro r s
  cases hm : s.arp with
  | none => simp [phaseEncodeAndWrite, withRet, hm]
  | some m =>
    cases hr : s.rpl with
    | none => simp [phaseEncodeAndWrite, withRet, hm, hr]
    | some p =>
      rw [phaseEncodeAndWrite_some hm hr, phaseEncodeAndWrite_some (s := withRet r s) hm hr]
      rw [withRet_localHA, loadTx_withRet]
      exact carriesRet_sendTx r _

theorem issueRead_withRet (n : Nat) (r : Option (Tagged Value)) (s : State) :
    issueRead n (withRet r s) = (issueRead n s).map (withRet r) := by
  cases hp : s.port <;> simp [issueRead, withRet, hp, Except.map, startRead, record]

theorem readTransaction_withRet (n : Nat) (r : Option (Tagged Value)) (s : State) :
    readTransaction n (withRet r s) = (readTransaction n s).map (Prod.map id (withRet r)) := by
  simp only [readTransaction, issueRead_withRet]
  cases issueRead n s with
  | error f => rfl
  | ok u =>
    simp only [Except.map, withRet_rxAnswers]
    cases u.rxAnswers with
    | nil => simp
    | cons a rest => dsimp only; split <;> rfl

theorem carriesRet_phaseReadFrame : CarriesRet phaseReadFrame := by
  intro r s
  simp only [phaseReadFrame, readTransaction_withRet]
  cases readTransaction Config.maxLen s with
  | error f => rfl
  | ok p => rcases p with ⟨_ | (b | _), u⟩ <;> rfl

theorem carriesRet_throughClassify (b : List Byte) : CarriesRet (throughClassify b) :=
  (carriesRet_decodeEthernetOn b).andThen carriesRet_phaseClassify

theorem carriesRet_throughDecodeArp (b : List Byte) : CarriesRet (throughDecodeArp b) :=
  (carriesRet_throughClassify b).andThen carriesRet_phaseDecodeArp

theorem carriesRet_throughRespond (b : List Byte) : CarriesRet (throughRespond b) :=
  (carriesRet_throughDecodeArp b).andThen carriesRet_phaseRespond

/-- An instruction of a frame class carries the returned value along; an operation invoked on its own replaces it. -/
theorem carriesRet_exec {i : Instr} (h : classOf i ≠ none) : CarriesRet (exec i) := by
  cases i with
  | frameRunt => exact (carriesRet_decodeEthernetOn _).withFrame
  | frameOther => exact (carriesRet_throughClassify _).withFrame
  | arpShortHdr | arpUnsupported | arpShortBody => exact (carriesRet_throughDecodeArp _).withFrame
  | arpReply | arpOtherOp => exact (carriesRet_throughRespond _).withFrame
  | arpRequest => exact ((carriesRet_throughRespond _).andThen carriesRet_phaseEncodeAndWrite).withFrame
  | _ => exact absurd rfl h

/-- What a frame decodes to is of a frame class, never a named operation (R84, R88). -/
theorem classOf_decodeFrame (b : List Byte) : classOf (decodeFrame b) ≠ none := by
  unfold decodeFrame
  dsimp only [decodeMessage]
  split_ifs <;> exact Option.some_ne_none _

/-- So is the instruction in hand. -/
theorem classOf_fetchHeld {s : State} {i : Instr} (h : fetchHeld s = .ok i) : classOf i ≠ none := by
  unfold fetchHeld decode at h
  split at h
  · cases h
  · split_ifs at h
    cases h
    exact classOf_decodeFrame _

theorem carriesRet_runHeld : CarriesRet (runHeld exec) := by
  intro r s
  have hf : fetchHeld (withRet r s) = fetchHeld s := rfl
  cases hi : fetchHeld s with
  | error f => simp [runHeld, hf, hi]
  | ok i => simpa [runHeld, hf, hi] using carriesRet_exec (classOf_fetchHeld hi) r s

theorem carriesRet_afterRead : CarriesRet afterRead := by
  intro r s
  cases hph : s.phase with
  | decodeEthernet => simpa [afterRead, withRet, hph] using carriesRet_runHeld r s
  | _ => simp [afterRead, withRet, hph]

theorem carriesRet_step : CarriesRet step := by
  intro r s
  have hph : (withRet r s).phase = s.phase := rfl
  unfold step phaseStep
  rw [hph]
  cases s.phase with
  | readFrame => exact carriesRet_phaseReadFrame.andThen carriesRet_afterRead r s
  | decodeEthernet => exact carriesRet_runHeld r s
  | classify => exact carriesRet_phaseClassify r s
  | decodeArp => exact carriesRet_phaseDecodeArp r s
  | respond => exact carriesRet_phaseRespond r s
  | encodeAndWrite => exact carriesRet_phaseEncodeAndWrite r s
  | halted => rfl

/-- Settles O57: every part of a step carries the returned value along. -/
theorem returnedValueIsNeverRead : Obligations.ReturnedValueIsNeverRead := by
  intro s r
  refine (carriesRet_step r s).trans ?_
  cases step s <;> rfl

/-! ### Registers without value, and the reset -/

/-- R27: a byte of the frame that holds no value makes the frame unreadable. -/
theorem heldFrame_noValue {s : State} {n x : Nat} (hn : s.rxlen = some n) (hx : x < n)
    (hb : bufByte s.rxbuf x = none) : heldFrame s = .error (.noValue .rxbuf) := by
  have hload : bufLoad s.rxbuf 0 n = none := bufLoad_none (Nat.zero_le x) (by omega) hb
  simp [heldFrame, hn, memRead, spaceLen, spaceMem, hload, spaceReg]

/-- Settles O40: in each phase the register that is missing is the first one read. -/
theorem readingARegisterWithoutValueFaults : Obligations.ReadingARegisterWithoutValueFaults := by
  intro s
  refine ⟨fun hph hn => ?_, fun n x hph hn hx hb => ?_, fun hph he => ?_, fun hph he => ?_, fun hph ha => ?_,
    fun hph ha => ?_, fun hph ha hr => ?_⟩
  · rw [phaseStep_decodeEthernet hph]; simp [phaseDecodeEthernet, heldFrame, hn]
  · rw [phaseStep_decodeEthernet hph]; simp [phaseDecodeEthernet, heldFrame_noValue hn hx hb]
  · rw [phaseStep_classify hph]; simp [phaseClassify, he]
  · rw [phaseStep_decodeArp hph]; simp [phaseDecodeArp, he]
  · rw [phaseStep_respond hph]; simp [phaseRespond, ha]
  · rw [phaseStep_encodeAndWrite hph]; simp [phaseEncodeAndWrite, ha]
  · obtain ⟨m, hm⟩ := Option.isSome_iff_exists.1 ha
    rw [phaseStep_encodeAndWrite hph]; simp [phaseEncodeAndWrite, hm, hr]

/-- Settles O47: in `ReadFrame` with an idle port and no register written the invariant holds. -/
theorem resetMeetsTheInvariant : Obligations.ResetMeetsTheInvariant :=
  ⟨⟨rfl, rfl, (phaseInv_readFrame rfl).2 ⟨rfl, .inl rfl⟩⟩,
    fun _ _ _ _ _ => ⟨rfl, rfl, (phaseInv_readFrame rfl).2 ⟨rfl, .inl rfl⟩⟩⟩

/-- Settles O58: the table of R31 is the definition of the reset state, row by row. -/
theorem resetState : Obligations.ResetState :=
  ⟨rfl, rfl, rfl, rfl, rfl, rfl, rfl, rfl, rfl, rfl, rfl, fun _ => List.not_mem_nil⟩

end Sys2Proof.Machine
end

section
/-! PROOFS. The buffers (20_memory.md R50, R51): what a read of one answers, and their canonical form, which every
instruction and every step keeps; and the transactions that R62 and R161 rule out. -/

namespace Sys2Proof.Machine

/-! ### What a buffer read answers (R51, R27) -/

section
variable {sp : Space} {s : State} {off n len : Nat}

theorem memRead_noLength (hl : spaceLen sp s = none) : memRead sp off n s = .error (.noValue (spaceLenReg sp)) := by
  simp [memRead, hl]

theorem memRead_inside {b : List Byte} (hl : spaceLen sp s = some len) (hn : off + n ≤ len)
    (hb : bufLoad (spaceMem sp s) off n = some b) : memRead sp off n s = .ok b := by
  simp [memRead, hl, hn, hb]

theorem memRead_outside (hl : spaceLen sp s = some len) (hn : len < off + n) :
    memRead sp off n s = .error (.outsideBuffer sp off n) := by
  simp [memRead, hl, Nat.not_le.2 hn]

theorem memRead_noValue {x : Nat} (hl : spaceLen sp s = some len) (hn : off + n ≤ len) (ho : off ≤ x)
    (hx : x < off + n) (hb : bufByte (spaceMem sp s) x = none) :
    memRead sp off n s = .error (.noValue (spaceReg sp)) := by
  simp [memRead, hl, hn, bufLoad_none ho hx hb]

end

/-- Settles O41: a capture makes the length of what it holds the valid range, and 42 bytes loaded fill theirs. -/
theorem bufferReadsStayInTheValidRange : Obligations.BufferReadsStayInTheValidRange := by
  intro b off n s
  refine ⟨fun hn => memRead_inside rfl hn (bufLoad_bufCapture hn), memRead_outside rfl, fun hb hn => ?_,
    memRead_outside rfl, fun hl => memRead_noLength hl, fun hl => memRead_noLength hl, fun len x hn ho hx => ⟨?_, ?_⟩⟩
  · exact memRead_inside rfl hn (bufLoad_bufCapture (hb.symm ▸ hn))
  · exact fun hl hb => memRead_noValue hl hn ho hx hb
  · exact fun hl hb => memRead_noValue hl hn ho hx hb

/-! ### Transactions that R62 and R161 rule out (log entries 8 and 9) -/

/-- The meaning of every frame class begins by taking a frame (R62, R84). -/
theorem exec_eq_withFrame {i : Instr} (hc : (classOf i).isSome) : ∃ k, ∀ s, exec i s = withFrame s k := by
  cases i with
  | frameRunt | arpRequest | arpReply | arpOtherOp | arpShortBody | arpUnsupported | arpShortHdr | frameOther =>
    exact ⟨_, fun _ => rfl⟩
  | _ => exact nomatch hc

section
variable {s : State} (hh : s.phase ≠ .halted)
include hh

theorem withFrame_busy {k : State → Out} (hp : s.port ≠ .idle) : withFrame s k = .fault .transactionInFlight :=
  (unlessHalted_run hh).trans (whenPortIdle_busy hp)

theorem exec_readFrame_error {n : Nat} {f : Fault} (hr : readTransaction n s = .error f) :
    exec (.readFrame n) s = .fault f := by
  simp [exec, execReadFrame, unlessHalted_run hh, hr]

theorem exec_writeFrame_error {b : List Byte} {f : Fault} (hw : writeTransaction b s = .error f) :
    exec (.writeFrame b) s = .fault f := by
  simp [exec, execWriteFrame, unlessHalted_run hh, hw]

end

theorem writeTransaction_busy {b : List Byte} {s : State} (hp : s.port ≠ .idle) (hw : s.port ≠ .writing b) :
    writeTransaction b s = .error .transactionInFlight := by
  rcases writeTransaction_cases b s with ⟨-, h⟩ | ⟨h, -⟩ | ⟨h, -⟩
  · exact h
  · exact absurd h hp
  · exact absurd h hw

/-- Settles O25: the transaction, or the taking of the frame, is what stops each of them. -/
theorem unlawfulTransactionsFault : Obligations.UnlawfulTransactionsFault := by
  intro s hh
  refine ⟨fun n b hp => exec_readFrame_error hh (readTransaction_writing hp), fun b hp => ?_, fun b b' hp hb => ?_,
    fun i hc hp => ?_, fun b rest hp hr hl => exec_readFrame_error hh (readTransaction_overlong hp hr hl)⟩
  · exact exec_writeFrame_error hh (writeTransaction_busy (by simp [hp]) (by simp [hp]))
  · exact exec_writeFrame_error hh (writeTransaction_busy (by simp [hp]) (by simp [hp, hb]))
  · obtain ⟨k, hk⟩ := exec_eq_withFrame hc
    exact (hk s).trans (withFrame_busy hh hp)

/-! ### The canonical form of the buffers (R50, log entry 7) -/

/-- Both buffers are in canonical form. -/
abbrev Canonical (s : State) : Prop := Memory.wf s.rxbuf = true ∧ Memory.wf s.txbuf = true

/-- If the outcome is a next state, both buffers are in canonical form in it. -/
def NextCanonical (o : Out) : Prop := ∀ t, o = .next t → Canonical t

theorem NextCanonical.next {t : State} (h : Canonical t) : NextCanonical (.next t) := by rintro _ ⟨⟩; exact h

theorem NextCanonical.fault (f : Fault) : NextCanonical (.fault f) := by intro _ h; cases h

theorem NextCanonical.andThen {o : Out} {k : State → Out} (ho : NextCanonical o)
    (hk : ∀ {u}, Canonical u → NextCanonical (k u)) : NextCanonical (andThen o k) := by
  intro t h
  obtain ⟨u, hu, ht⟩ := andThen_eq_next h
  exact hk (ho u hu) t ht

/-- A drop, like every end of a cycle, leaves both buffers empty (R28, R183). -/
theorem nextCanonical_endCycle (c : OutcomeCode) (s : State) : NextCanonical (.next (endCycle c s)) :=
  .next ⟨rfl, rfl⟩

theorem canonical_captureFrame {s : State} (b : List Byte) (h : Canonical s) : Canonical (captureFrame b s) :=
  ⟨bufCapture_wf b, h.2⟩

theorem canonical_startWrite {s : State} (b : List Byte) (h : Canonical s) : Canonical (startWrite b s) := h

theorem canonical_loadTx {s : State} (b : List Byte) (h : Canonical s) : Canonical (loadTx b s) :=
  ⟨h.1, bufCapture_wf b⟩

section
variable {s : State} (h : Canonical s)
include h

theorem nextCanonical_unlessHalted {k : State → Out} (hk : NextCanonical (k s)) : NextCanonical (unlessHalted s k) := by
  by_cases hh : s.phase = .halted
  · rw [unlessHalted_halted hh]; exact .next h
  · rwa [unlessHalted_run hh]

theorem nextCanonical_withFrame {k : State → Out} (hk : NextCanonical (k s)) : NextCanonical (withFrame s k) := by
  rcases withFrame_cases s k with ⟨-, hw⟩ | ⟨-, -, hw⟩ | ⟨-, -, hw⟩ <;> rw [hw]
  · exact .next h
  · exact .fault _
  · exact hk

theorem nextCanonical_returnValue (r : Tagged Value) : NextCanonical (returnValue r s) :=
  nextCanonical_unlessHalted h (.next h)

/-! The transactions touch no buffer (R161, R162). -/

theorem readTransaction_canonical {n : Nat} {a : Option ReadAnswer} {t : State}
    (hr : readTransaction n s = .ok (a, t)) : Canonical t := by
  rcases readTransaction_cases n s with ⟨_, _, ho⟩ | ⟨_, _, ho⟩ | ⟨_, _, ho⟩ | ⟨_, _, _, _, ho⟩ |
    ⟨_, _, _, _, ⟨_, ho⟩ | ⟨_, ho⟩⟩ <;> cases ho.symm.trans hr <;> exact h

theorem awaitWrite_canonical : Canonical (awaitWrite s).2 := by
  cases hw : s.wrAnswers with
  | nil => rwa [awaitWrite_nil hw]
  | cons a rest => rw [awaitWrite_cons hw]; exact h

theorem writeTransaction_canonical {b : List Byte} {a : Option WriteAnswer} {t : State}
    (hw : writeTransaction b s = .ok (a, t)) : Canonical t := by
  rcases writeTransaction_cases b s with ⟨-, ho⟩ | ⟨-, ho⟩ | ⟨-, ho⟩ <;> rw [ho] at hw
  · cases hw
  · obtain rfl : (awaitWrite (startWrite b s)).2 = t := congrArg Prod.snd (Except.ok.inj hw)
    exact awaitWrite_canonical (canonical_startWrite b h)
  · obtain rfl : (awaitWrite s).2 = t := congrArg Prod.snd (Except.ok.inj hw)
    exact awaitWrite_canonical h

theorem nextCanonical_execReadFrame (n : Nat) : NextCanonical (execReadFrame n s) := by
  refine nextCanonical_unlessHalted h ?_
  cases hr : readTransaction n s with
  | error f => exact .fault f
  | ok p =>
    obtain ⟨a, t⟩ := p
    have ht : Canonical t := readTransaction_canonical h hr
    cases a with
    | none => exact .next ht
    | some a =>
      dsimp only
      split
      · exact .next ht
      · exact .fault _

theorem nextCanonical_execWriteFrame (b : List Byte) : NextCanonical (execWriteFrame b s) := by
  refine nextCanonical_unlessHalted h ?_
  cases hw : writeTransaction b s with
  | error f => exact .fault f
  | ok p =>
    obtain ⟨a, t⟩ := p
    have ht : Canonical t := writeTransaction_canonical h hw
    cases a <;> exact .next ht

/-! The phases: `ReadFrame` captures, `EncodeAndWrite` loads, and the others leave the buffers or end the cycle. -/

theorem nextCanonical_phaseReadFrame : NextCanonical (phaseReadFrame s) := by
  unfold phaseReadFrame
  cases hr : readTransaction Config.maxLen s with
  | error f => exact .fault f
  | ok p =>
    obtain ⟨a, t⟩ := p
    have ht : Canonical t := readTransaction_canonical h hr
    rcases a with _ | (b | _)
    · exact .next ht
    · have hc : Canonical (captureFrame b t) := canonical_captureFrame b ht
      exact .next hc
    · exact .next ⟨rfl, rfl⟩

theorem nextCanonical_decodeEthernetOn (b : List Byte) : NextCanonical (decodeEthernetOn b s) := by
  unfold decodeEthernetOn
  split
  · exact .next h
  · exact nextCanonical_endCycle _ s

theorem nextCanonical_phaseClassify : NextCanonical (phaseClassify s) := by
  cases hf : s.eth with
  | none => simpa [phaseClassify, hf] using NextCanonical.fault _
  | some f =>
    rw [phaseClassify_some hf]
    split
    · exact .next h
    · exact nextCanonical_endCycle _ s

theorem nextCanonical_phaseDecodeArp : NextCanonical (phaseDecodeArp s) := by
  cases hf : s.eth with
  | none => simpa [phaseDecodeArp, hf] using NextCanonical.fault _
  | some f =>
    cases hd : decodeArp f.payload with
    | ok m => rw [phaseDecodeArp_ok hf hd]; exact .next h
    | raise e => rw [phaseDecodeArp_raise hf hd]; exact nextCanonical_endCycle _ s

theorem nextCanonical_phaseRespond : NextCanonical (phaseRespond s) := by
  cases hm : s.arp with
  | none => simpa [phaseRespond, hm] using NextCanonical.fault _
  | some m =>
    cases hd : handle m s.localHA s.localPA with
    | ok r => rw [phaseRespond_ok hm hd]; exact .next h
    | raise e => rw [phaseRespond_raise hm hd]; exact nextCanonical_endCycle _ s

theorem nextCanonical_finishWrite : NextCanonical (finishWrite s) := by
  cases hw : s.wrAnswers with
  | nil => rw [finishWrite_nil hw]; exact .next h
  | cons a rest => rw [finishWrite_cons hw]; exact nextCanonical_endCycle _ _

theorem nextCanonical_phaseEncodeAndWrite : NextCanonical (phaseEncodeAndWrite s) := by
  cases hm : s.arp with
  | none => simpa [phaseEncodeAndWrite, hm] using NextCanonical.fault _
  | some m =>
    cases hr : s.rpl with
    | none => simpa [phaseEncodeAndWrite, hm, hr] using NextCanonical.fault _
    | some r =>
      have hl := canonical_loadTx (encodeEthernet (wrapReply m r s.localHA)) h
      by_cases hp : s.port = .idle
      · rw [phaseEncodeAndWrite_idle hp hm hr]; exact nextCanonical_finishWrite (canonical_startWrite _ hl)
      · by_cases hw : s.port = .writing (encodeEthernet (wrapReply m r s.localHA))
        · rw [phaseEncodeAndWrite_writing hm hr hw]; exact nextCanonical_finishWrite hl
        · rw [phaseEncodeAndWrite_busy hm hr hp hw]; exact .fault _

/-! The frame classes, which are phases one after another (R84), and the step. -/

theorem nextCanonical_throughClassify (b : List Byte) : NextCanonical (throughClassify b s) :=
  (nextCanonical_decodeEthernetOn h b).andThen nextCanonical_phaseClassify

theorem nextCanonical_throughDecodeArp (b : List Byte) : NextCanonical (throughDecodeArp b s) :=
  (nextCanonical_throughClassify h b).andThen nextCanonical_phaseDecodeArp

theorem nextCanonical_throughRespond (b : List Byte) : NextCanonical (throughRespond b s) :=
  (nextCanonical_throughDecodeArp h b).andThen nextCanonical_phaseRespond

theorem nextCanonical_exec (i : Instr) : NextCanonical (exec i s) := by
  cases i with
  | frameRunt => exact nextCanonical_withFrame h (nextCanonical_decodeEthernetOn h _)
  | frameOther => exact nextCanonical_withFrame h (nextCanonical_throughClassify h _)
  | arpShortHdr | arpUnsupported | arpShortBody =>
    exact nextCanonical_withFrame h (nextCanonical_throughDecodeArp h _)
  | arpReply | arpOtherOp => exact nextCanonical_withFrame h (nextCanonical_throughRespond h _)
  | arpRequest =>
    exact nextCanonical_withFrame h ((nextCanonical_throughRespond h _).andThen nextCanonical_phaseEncodeAndWrite)
  | readFrame n => exact nextCanonical_execReadFrame h n
  | writeFrame b => exact nextCanonical_execWriteFrame h b
  | _ => exact nextCanonical_returnValue h _

theorem nextCanonical_runHeld : NextCanonical (runHeld exec s) := by
  unfold runHeld
  split
  · exact .fault _
  · exact nextCanonical_exec h _

theorem nextCanonical_afterRead : NextCanonical (afterRead s) := by
  unfold afterRead
  split
  · exact nextCanonical_runHeld h
  all_goals exact .next h

theorem nextCanonical_step : NextCanonical (step s) := by
  unfold step phaseStep
  cases s.phase with
  | readFrame => exact (nextCanonical_phaseReadFrame h).andThen nextCanonical_afterRead
  | decodeEthernet => exact nextCanonical_runHeld h
  | classify => exact nextCanonical_phaseClassify h
  | decodeArp => exact nextCanonical_phaseDecodeArp h
  | respond => exact nextCanonical_phaseRespond h
  | encodeAndWrite => exact nextCanonical_phaseEncodeAndWrite h
  | halted => exact .next h

end

/-- Settles O55: a buffer is left alone, captured, loaded or emptied. -/
theorem buffersStayCanonical : Obligations.BuffersStayCanonical :=
  ⟨fun i _ t hrx htx => nextCanonical_exec ⟨hrx, htx⟩ i t, fun _ t hrx htx => nextCanonical_step ⟨hrx, htx⟩ t⟩

end Sys2Proof.Machine
end

section
/-! PROOFS. The encoding (30_encoding.md R80 to R84): the decoder on the bytes of each frame class, the frames it can
be given, and the opcode table's mask rows. -/

namespace Sys2Proof.Machine

@[simp] theorem hton16_ntoh16 (b : Wire2) : hton16 (ntoh16 b) = b := by
  rw [ntoh16_eq_append, hton16]
  obtain ⟨h0, h1⟩ := append_inj_iff.1 (split_u16 (b.b0 ++ b.b1))
  rw [← h0, ← h1]

@[simp] theorem hton32_ntoh32 (b : Wire4) : hton32 (ntoh32 b) = b := by
  rw [ntoh32_eq_append, hton32]
  obtain ⟨h012, h3⟩ := append_inj_iff.1 (split_u32 (b.b0 ++ b.b1 ++ b.b2 ++ b.b3))
  obtain ⟨h01, h2⟩ := append_inj_iff.1 h012
  obtain ⟨h0, h1⟩ := append_inj_iff.1 h01
  rw [← h0, ← h1, ← h2, ← h3]

/-- The 16-bit field at an offset is a given number just when its two bytes are that number's (R54, R83). -/
theorem u16At_eq_iff {b : List Byte} {o : Nat} (h : o + 2 ≤ b.length) (hi lo : Byte) :
    u16At b o = hi ++ lo ↔ (b.drop o).take 2 = [hi, lo] := by
  rw [u16At, ntoh16_eq_append, append_inj_iff, drop_take_bytes b o 2 h]
  simp [wire2At, List.range_succ]

/-! ### The decoder on the bytes of a frame (R84) -/

section
variable (dst src : HA) (etype : U16) (p : List Byte)

@[simp] theorem haAt_frameBytes_zero : haAt (frameBytes dst src etype p) 0 = dst := rfl
@[simp] theorem haAt_frameBytes_six : haAt (frameBytes dst src etype p) 6 = src := rfl
@[simp] theorem u16At_frameBytes_twelve : u16At (frameBytes dst src etype p) 12 = etype := ntoh16_hton16 etype
@[simp] theorem fromOffset_frameBytes : fromOffset (frameBytes dst src etype p) 14 = p := rfl

/-- R84's conditions on an Ethernet frame, as conditions on its ethertype and payload. -/
theorem decodeFrame_frameBytes :
    decodeFrame (frameBytes dst src etype p) =
      if etype ≠ Config.ethertypeArp then .frameOther dst src etype p
      else if p.length < 8 then .arpShortHdr dst src p
      else if p.take 6 ≠ gateBytes then .arpUnsupported dst src p
      else if p.length < 28 then .arpShortBody dst src (u16At p 6) (p.drop 8)
      else decodeMessage (frameBytes dst src etype p) := by
  have h14 : ¬(frameBytes dst src etype p).length < 14 := by simp
  have h22 : (frameBytes dst src etype p).length < 22 ↔ p.length < 8 := by simp; omega
  have h42 : (frameBytes dst src etype p).length < 42 ↔ p.length < 28 := by simp; omega
  simp only [decodeFrame, h14, h22, h42, if_false, u16At_frameBytes_twelve, haAt_frameBytes_zero, haAt_frameBytes_six,
    fromOffset_frameBytes]
  rfl

end

/-- The instruction of a frame with a supported message: class 6, 7 or 8, by its `oper` (R84). -/
def messageInstr (dst src : HA) (oper : U16) (sha : HA) (spa : PA) (tha : HA) (tpa : PA) (tail : List Byte) : Instr :=
  if oper = Config.opRequest then .arpRequest dst src sha spa tha tpa tail
  else if oper = Config.opReply then .arpReply dst src sha spa tha tpa tail
  else .arpOtherOp dst src oper sha spa tha tpa tail

section
variable {dst src : HA} {oper : U16} {sha : HA} {spa : PA} {tha : HA} {tpa : PA} {tail : List Byte}

theorem messageInstr_request :
    messageInstr dst src Config.opRequest sha spa tha tpa tail = .arpRequest dst src sha spa tha tpa tail := if_pos rfl

theorem messageInstr_reply :
    messageInstr dst src Config.opReply sha spa tha tpa tail = .arpReply dst src sha spa tha tpa tail :=
  (if_neg (by decide)).trans (if_pos rfl)

theorem messageInstr_other (hreq : oper ≠ Config.opRequest) (hrep : oper ≠ Config.opReply) :
    messageInstr dst src oper sha spa tha tpa tail = .arpOtherOp dst src oper sha spa tha tpa tail :=
  (if_neg hreq).trans (if_neg hrep)

/-- The fields of the message are read back where R82 puts them in the frame. -/
theorem decodeMessage_arpFrameBytes :
    decodeMessage (arpFrameBytes dst src oper sha spa tha tpa tail) =
      messageInstr dst src oper sha spa tha tpa tail := by
  have h : decodeMessage (arpFrameBytes dst src oper sha spa tha tpa tail) = messageInstr dst src
      (ntoh16 (hton16 oper)) sha (ntoh32 (hton32 spa)) tha (ntoh32 (hton32 tpa)) tail := rfl
  rw [h, ntoh16_hton16, ntoh32_hton32, ntoh32_hton32]

/-- Classes 6, 7 and 8: the frame of a supported message. -/
theorem decodeFrame_arpFrameBytes :
    decodeFrame (arpFrameBytes dst src oper sha spa tha tpa tail) =
      messageInstr dst src oper sha spa tha tpa tail := by
  rw [← decodeMessage_arpFrameBytes, arpFrameBytes, decodeFrame_frameBytes, if_neg (by simp), if_neg (by simp; omega),
    if_neg (fun h => h rfl), if_neg (by simp)]

/-- Whatever its `oper`, the message's frame is what its instruction encodes to (R82). -/
theorem encode_messageInstr :
    encode (messageInstr dst src oper sha spa tha tpa tail) =
      some (arpFrameBytes dst src oper sha spa tha tpa tail) := by
  unfold messageInstr
  split
  · subst oper; rfl
  split
  · subst oper; rfl
  · rfl

/-- The instruction is well-formed as soon as the frame fits the receive buffer (R53). -/
theorem wellFormed_messageInstr (h : 42 + tail.length ≤ Config.maxLen) :
    wellFormed (messageInstr dst src oper sha spa tha tpa tail) = true := by
  have hfit := (fitsBuffer_iff _).2 h
  unfold messageInstr
  split
  · exact hfit
  split
  · exact hfit
  · simp [wellFormed, *]

end

/-- Class 5: the frame of a supported fixed header with too little after it. -/
theorem decodeFrame_arpShortBytes (dst src : HA) (oper : U16) {rest : List Byte} (h : rest.length < 20) :
    decodeFrame (arpShortBytes dst src oper rest) = .arpShortBody dst src oper rest := by
  have ho : u16At (arpFixedBytes oper ++ rest) 6 = oper := ntoh16_hton16 oper
  rw [arpShortBytes, decodeFrame_frameBytes, if_neg (by simp), if_neg (by simp), if_neg (fun h => h rfl),
    if_pos (by simp; omega), ho]
  rfl

/-- What the decoder answers for a frame that fits the receive buffer (R84, R53). -/
theorem decode_fits {b : List Byte} (h : b.length ≤ Config.maxLen) : decode b = .instr (decodeFrame b) := by
  rw [decode, if_pos ((fitsBuffer_iff _).2 h)]

/-- A longer sequence is rejected (log entry 10). -/
theorem decode_overlong {b : List Byte} (h : Config.maxLen < b.length) :
    decode b = .rejected (.overCapacity b.length) := by
  rw [decode, if_neg (fun hf => by have := (fitsBuffer_iff _).1 hf; omega)]

/-- What decodes fits the receive buffer (R53). -/
theorem length_of_decode {b : List Byte} {i : Instr} (h : decode b = .instr i) : b.length ≤ Config.maxLen := by
  by_contra hl
  rw [decode_overlong (by omega)] at h
  cases h

/-- The frame of a well-formed instruction, of whatever class, decodes to that instruction (R84). -/
theorem decodeFrame_encode {i : Instr} {b : List Byte} (hw : wellFormed i = true) (he : encode i = some b) :
    decodeFrame b = i := by
  cases i with
  | frameRunt bytes =>
    cases he
    exact if_pos (of_decide_eq_true hw)
  | frameOther dst src etype payload =>
    have ht : etype ≠ Config.ethertypeArp := of_decide_eq_true (Bool.and_eq_true_iff.1 hw).1
    cases he
    rw [decodeFrame_frameBytes, if_pos ht]
  | arpShortHdr dst src payload =>
    have hl : payload.length < 8 := of_decide_eq_true hw
    cases he
    rw [decodeFrame_frameBytes, if_neg (by simp), if_pos hl]
  | arpUnsupported dst src payload =>
    simp only [wellFormed, Bool.and_eq_true, decide_eq_true_eq] at hw
    obtain ⟨⟨hl, hg⟩, -⟩ := hw
    cases he
    rw [decodeFrame_frameBytes, if_neg (by simp), if_neg (by omega), if_pos hg]
  | arpShortBody dst src oper rest =>
    cases he
    exact decodeFrame_arpShortBytes dst src oper (of_decide_eq_true hw)
  | arpRequest dst src sha spa tha tpa tail =>
    cases he
    rw [decodeFrame_arpFrameBytes, messageInstr_request]
  | arpReply dst src sha spa tha tpa tail =>
    cases he
    rw [decodeFrame_arpFrameBytes, messageInstr_reply]
  | arpOtherOp dst src oper sha spa tha tpa tail =>
    simp only [wellFormed, Bool.and_eq_true, decide_eq_true_eq] at hw
    obtain ⟨⟨hreq, hrep⟩, -⟩ := hw
    cases he
    rw [decodeFrame_arpFrameBytes, messageInstr_other hreq hrep]
  | _ => cases he

/-- The frame of a well-formed instruction fits the receive buffer (R53, R86). -/
theorem length_encode_le {i : Instr} {b : List Byte} (hw : wellFormed i = true) (he : encode i = some b) :
    b.length ≤ Config.maxLen := by
  cases i with
  | frameRunt bytes => exact (Laws.FitsBuffer.frameRunt bytes hw b he).2
  | frameOther dst src etype p => exact (Laws.FitsBuffer.frameOther dst src etype p hw b he).2
  | arpShortHdr dst src p => exact (Laws.FitsBuffer.arpShortHdr dst src p hw b he).2
  | arpUnsupported dst src p => exact (Laws.FitsBuffer.arpUnsupported dst src p hw b he).2
  | arpShortBody dst src oper rest => exact (Laws.FitsBuffer.arpShortBody dst src oper rest hw b he).2
  | arpRequest dst src sha spa tha tpa tail =>
    exact (Laws.FitsBuffer.arpRequest dst src sha spa tha tpa tail hw b he).2
  | arpReply dst src sha spa tha tpa tail => exact (Laws.FitsBuffer.arpReply dst src sha spa tha tpa tail hw b he).2
  | arpOtherOp dst src oper sha spa tha tpa tail =>
    exact (Laws.FitsBuffer.arpOtherOp dst src oper sha spa tha tpa tail hw b he).2
  | _ => cases he

/-- Settles O1, class by class; the frame fits the receive buffer. -/
theorem decodeOfEncodedInstruction : Obligations.DecodeOfEncodedInstruction := by
  intro i b hw he
  rw [decode_fits (length_encode_le hw he), decodeFrame_encode hw he]

/-! ### Every frame is the encoding of an instruction (R80 to R82) -/

/-- A frame with a whole header is that header before a payload (R80). -/
theorem exists_frameBytes {b : List Byte} (h : 14 ≤ b.length) : ∃ dst src etype p, b = frameBytes dst src etype p := by
  obtain ⟨d0, d1, d2, d3, d4, d5, s0, s1, s2, s3, s4, s5, e0, e1, p, rfl⟩ := exists_fourteen h
  refine ⟨⟨d0, d1, d2, d3, d4, d5⟩, ⟨s0, s1, s2, s3, s4, s5⟩, ntoh16 ⟨e0, e1⟩, p, ?_⟩
  rw [frameBytes, u16Bytes, hton16_ntoh16]
  rfl

/-- A payload whose fixed header passes the gate is a supported fixed header before a rest (R81, R84). -/
theorem exists_arpFixedBytes {p : List Byte} (h : 8 ≤ p.length) (hg : p.take 6 = gateBytes) :
    ∃ oper rest, p = arpFixedBytes oper ++ rest := by
  obtain ⟨h0, h1, t0, t1, hl, pl, o0, o1, rest, rfl⟩ := exists_eight h
  refine ⟨ntoh16 ⟨o0, o1⟩, rest, ?_⟩
  obtain ⟨rfl, rfl, rfl, rfl, rfl, rfl⟩ : h0 = 0x00#8 ∧ h1 = 0x01#8 ∧ t0 = 0x08#8 ∧ t1 = 0x00#8 ∧ hl = 0x06#8 ∧
      pl = 0x04#8 := by simpa [gateBytes] using hg
  rw [arpFixedBytes, u16Bytes, u16Bytes, u16Bytes, hton16_ntoh16]
  rfl

/-- With 20 bytes after it, a fixed header is the start of a whole message (R81). -/
theorem exists_arpBytes (oper : U16) {rest : List Byte} (h : 20 ≤ rest.length) :
    ∃ sha spa tha tpa tail, arpFixedBytes oper ++ rest = arpBytes oper sha spa tha tpa ++ tail := by
  obtain ⟨a0, a1, a2, a3, a4, a5, p0, p1, p2, p3, c0, c1, c2, c3, c4, c5, q0, q1, q2, q3, tail, rfl⟩ := exists_twenty h
  refine ⟨⟨a0, a1, a2, a3, a4, a5⟩, ntoh32 ⟨p0, p1, p2, p3⟩, ⟨c0, c1, c2, c3, c4, c5⟩, ntoh32 ⟨q0, q1, q2, q3⟩,
    tail, ?_⟩
  rw [arpBytes, u32Bytes, u32Bytes, hton32_ntoh32, hton32_ntoh32]
  rfl

/-- Every frame that fits the receive buffer is the encoding of a well-formed instruction (R84). -/
theorem exists_encode {b : List Byte} (h : b.length ≤ Config.maxLen) :
    ∃ i, wellFormed i = true ∧ encode i = some b := by
  by_cases h14 : b.length < 14
  · exact ⟨.frameRunt b, decide_eq_true h14, rfl⟩
  obtain ⟨dst, src, etype, p, rfl⟩ := exists_frameBytes (Nat.le_of_not_lt h14)
  rw [frameBytes_length] at h
  have hfit := (fitsBuffer_iff _).2 h
  by_cases ht : etype = Config.ethertypeArp
  case neg => exact ⟨.frameOther dst src etype p, by simp [wellFormed, ht, hfit], rfl⟩
  subst ht
  by_cases h8 : p.length < 8
  · exact ⟨.arpShortHdr dst src p, decide_eq_true h8, rfl⟩
  have h8 := Nat.le_of_not_lt h8
  by_cases hg : p.take 6 = gateBytes
  case neg => exact ⟨.arpUnsupported dst src p, by simp [wellFormed, h8, hg, hfit], rfl⟩
  obtain ⟨oper, rest, rfl⟩ := exists_arpFixedBytes h8 hg
  by_cases h20 : rest.length < 20
  · exact ⟨.arpShortBody dst src oper rest, decide_eq_true h20, rfl⟩
  obtain ⟨sha, spa, tha, tpa, tail, hm⟩ := exists_arpBytes oper (Nat.le_of_not_lt h20)
  rw [hm] at h ⊢
  exact ⟨messageInstr dst src oper sha spa tha tpa tail,
    wellFormed_messageInstr (by simp at h; omega), encode_messageInstr⟩

/-- Settles O2: the frame is the encoding of some well-formed instruction, and that is the one it decodes to (O1). -/
theorem encodeOfDecodedFrame : Obligations.EncodeOfDecodedFrame := by
  intro b i hd
  obtain ⟨j, hw, he⟩ := exists_encode (length_of_decode hd)
  obtain rfl : j = i := Decoded.instr.inj ((decodeOfEncodedInstruction j b hw he).symm.trans hd)
  exact ⟨hw, he⟩

/-! ### R84's table of conditions, and the opcode table's mask rows -/

section
variable {b : List Byte}

/-- The ethertype test of R84, on the bytes. -/
theorem ethertype_eq_iff (h : 14 ≤ b.length) :
    u16At b 12 = Config.ethertypeArp ↔ (b.drop 12).take 2 = [0x08#8, 0x06#8] := u16At_eq_iff (by omega) 0x08#8 0x06#8

/-- The Request test of R84, on the bytes. -/
theorem opRequest_eq_iff (h : 22 ≤ b.length) :
    u16At b 20 = Config.opRequest ↔ (b.drop 20).take 2 = [0x00#8, 0x01#8] := u16At_eq_iff (by omega) 0x00#8 0x01#8

/-- The Reply test of R84, on the bytes. -/
theorem opReply_eq_iff (h : 22 ≤ b.length) :
    u16At b 20 = Config.opReply ↔ (b.drop 20).take 2 = [0x00#8, 0x02#8] := u16At_eq_iff (by omega) 0x00#8 0x02#8

end

/-- The class the decoder gives a frame: each branch answers an instruction of its class (R84). -/
theorem classOf_decodeFrame_eq (b : List Byte) :
    classOf (decodeFrame b) = some (
      if b.length < 14 then .frameRunt
      else if u16At b 12 ≠ Config.ethertypeArp then .frameOther
      else if b.length < 22 then .arpShortHdr
      else if (b.drop 14).take 6 ≠ gateBytes then .arpUnsupported
      else if b.length < 42 then .arpShortBody
      else if u16At b 20 = Config.opRequest then .arpRequest
      else if u16At b 20 = Config.opReply then .arpReply
      else .arpOtherOp) := by
  simp only [decodeFrame, decodeMessage]
  split_ifs <;> rfl

/-- Settles O3: the decoder's tests on fields are R84's conditions on bytes, each where the tests of the length before
it have settled that the bytes are there. -/
theorem classConditionsInOrder : Obligations.ClassConditionsInOrder := by
  intro b
  refine ⟨decode_overlong, fun hl => ⟨decodeFrame b, decode_fits hl, ?_⟩⟩
  rw [classOf_decodeFrame_eq]
  by_cases h14 : b.length < 14
  · simp only [h14, if_true]
  by_cases h22 : b.length < 22
  · simp only [h14, h22, if_true, if_false, ne_eq, ethertype_eq_iff (Nat.le_of_not_lt h14)]
  · simp only [h14, h22, if_false, ne_eq, ethertype_eq_iff (Nat.le_of_not_lt h14),
      opRequest_eq_iff (Nat.le_of_not_lt h22), opReply_eq_iff (Nat.le_of_not_lt h22), gateBytes]

/-- Bytes 0 to 11 of `W22`, the Ethernet addresses, which no mask row reads (R82). -/
def addressWord (b : List Byte) : BitVec 96 :=
  byteAt b 0 ++ byteAt b 1 ++ byteAt b 2 ++ byteAt b 3 ++ byteAt b 4 ++ byteAt b 5 ++
    byteAt b 6 ++ byteAt b 7 ++ byteAt b 8 ++ byteAt b 9 ++ byteAt b 10 ++ byteAt b 11

/-- Bytes 14 to 19 of `W22`, which the validity gate tests (R82, R84). -/
def gateWord (b : List Byte) : BitVec 48 :=
  byteAt b 14 ++ byteAt b 15 ++ byteAt b 16 ++ byteAt b 17 ++ byteAt b 18 ++ byteAt b 19

/-- `W22` cut into the fields the mask rows test: the addresses, the ethertype, the gate's bytes and `oper` (R82). -/
theorem w22_eq_fields (b : List Byte) : w22 b = addressWord b ++ u16At b 12 ++ gateWord b ++ u16At b 20 := by
  have h12 : u16At b 12 = byteAt b 12 ++ byteAt b 13 := ntoh16_eq_append _
  have h20 : u16At b 20 = byteAt b 20 ++ byteAt b 21 := ntoh16_eq_append _
  apply BitVec.eq_of_toNat_eq
  simp only [w22, addressWord, gateWord, h12, h20, append_toNat]
  omega

/-- The gate's bytes as one word (R84). -/
theorem gateWord_eq_iff {b : List Byte} (h : 20 ≤ b.length) :
    gateWord b = 0x000108000604#48 ↔ (b.drop 14).take 6 = gateBytes := by
  have hw : (0x000108000604#48 : BitVec 48) = 0x00#8 ++ 0x01#8 ++ 0x08#8 ++ 0x00#8 ++ 0x06#8 ++ 0x04#8 := rfl
  rw [gateWord, hw, append_inj_iff, append_inj_iff, append_inj_iff, append_inj_iff, append_inj_iff,
    drop_take_bytes b 14 6 h]
  simp [gateBytes, List.range_succ, and_assoc]

/-- A mask that covers whole fields applies to each field, and a match is a match of each. -/
theorem w22_masked_eq_iff (b : List Byte) (ma pa : BitVec 96) (mt pt : BitVec 16) (mg pg : BitVec 48)
    (mo po : BitVec 16) :
    w22 b &&& (ma ++ mt ++ mg ++ mo) = pa ++ pt ++ pg ++ po ↔
      addressWord b &&& ma = pa ∧ u16At b 12 &&& mt = pt ∧ gateWord b &&& mg = pg ∧ u16At b 20 &&& mo = po := by
  rw [w22_eq_fields, append_and_append, append_and_append, append_and_append, append_inj_iff, append_inj_iff,
    append_inj_iff, and_assoc, and_assoc]

/-! The masks of the opcode table cover whole fields: the ethertype; with it the gate's bytes; with both `oper`. -/

/-- The rows `ARP_SHORT_HDR` and `ARP_UNSUPPORTED` test the ethertype. -/
theorem w22_etherMask_iff (b : List Byte) :
    w22 b &&& 0x000000000000000000000000ffff0000000000000000#176 = 0x00000000000000000000000008060000000000000000#176 ↔
      u16At b 12 = Config.ethertypeArp := by
  refine (w22_masked_eq_iff b 0#96 0#96 (.allOnes 16) Config.ethertypeArp 0#48 0#48 0#16 0#16).trans ?_
  simp only [BitVec.and_allOnes, BitVec.and_zero, true_and, and_true]

/-- The rows `ARP_SHORT_BODY` and `ARP_OTHER_OP` test the ethertype and the gate. -/
theorem w22_gateMask_iff {b : List Byte} (h : 22 ≤ b.length) :
    w22 b &&& 0x000000000000000000000000ffffffffffffffff0000#176 =
        0x00000000000000000000000008060001080006040000#176 ↔
      u16At b 12 = Config.ethertypeArp ∧ (b.drop 14).take 6 = gateBytes := by
  rw [← gateWord_eq_iff (by omega)]
  refine (w22_masked_eq_iff b 0#96 0#96 (.allOnes 16) Config.ethertypeArp (.allOnes 48) 0x000108000604#48
    0#16 0#16).trans ?_
  simp only [BitVec.and_allOnes, BitVec.and_zero, true_and, and_true]

/-- The rows `ARP_REQUEST` and `ARP_REPLY` test the ethertype, the gate and `oper`. -/
theorem w22_operMask_iff {b : List Byte} (h : 22 ≤ b.length) (oper : U16) :
    w22 b &&& 0x000000000000000000000000ffffffffffffffffffff#176 =
        0x0000000000000000000000000806000108000604#160 ++ oper ↔
      u16At b 12 = Config.ethertypeArp ∧ (b.drop 14).take 6 = gateBytes ∧ u16At b 20 = oper := by
  rw [← gateWord_eq_iff (by omega)]
  refine (w22_masked_eq_iff b 0#96 0#96 (.allOnes 16) Config.ethertypeArp (.allOnes 48) 0x000108000604#48
    (.allOnes 16) oper).trans ?_
  simp only [BitVec.and_allOnes, BitVec.and_zero, true_and]

theorem w22_requestMask_iff {b : List Byte} (h : 22 ≤ b.length) :
    w22 b &&& 0x000000000000000000000000ffffffffffffffffffff#176 =
        0x00000000000000000000000008060001080006040001#176 ↔
      u16At b 12 = Config.ethertypeArp ∧ (b.drop 14).take 6 = gateBytes ∧ u16At b 20 = Config.opRequest :=
  w22_operMask_iff h Config.opRequest

theorem w22_replyMask_iff {b : List Byte} (h : 22 ≤ b.length) :
    w22 b &&& 0x000000000000000000000000ffffffffffffffffffff#176 =
        0x00000000000000000000000008060001080006040002#176 ↔
      u16At b 12 = Config.ethertypeArp ∧ (b.drop 14).take 6 = gateBytes ∧ u16At b 20 = Config.opReply :=
  w22_operMask_iff h Config.opReply

/-- A row of the opcode table with an upper length applies by its bounds and its mask (R84). -/
theorem rowApplies_bounded (c : FrameClass) (p m : BitVec 176) (lo hi : Nat) (b : List Byte) :
    rowApplies ⟨c, p, m, lo, some hi⟩ b = decide (lo ≤ b.length ∧ b.length ≤ hi ∧ w22 b &&& m = p) := by
  simp [rowApplies, Bool.and_assoc]

/-- A row without one is bounded by the receive buffer (R84, R53). -/
theorem rowApplies_open {b : List Byte} (hl : b.length ≤ Config.maxLen) (c : FrameClass) (p m : BitVec 176) (lo : Nat) :
    rowApplies ⟨c, p, m, lo, none⟩ b = decide (lo ≤ b.length ∧ w22 b &&& m = p) := by
  simp [rowApplies, (fitsBuffer_iff _).2 hl]

section
variable {b : List Byte} (hl : b.length ≤ Config.maxLen)

/-- Fewer than 14 bytes: the first row applies. -/
theorem tableClass_runt (h14 : b.length < 14) : tableClass b = some .frameRunt := by
  have h13 : b.length ≤ 13 := by omega
  simp [tableClass, opcodeRows, rowApplies_bounded, h13]

include hl

/-- Fewer than 22 bytes: of the rows that test a field only `ARP_SHORT_HDR` admits the length. -/
theorem tableClass_short (h14 : 14 ≤ b.length) (h22 : b.length < 22) :
    tableClass b = some (if u16At b 12 = Config.ethertypeArp then .arpShortHdr else .frameOther) := by
  have h13 : ¬b.length ≤ 13 := by omega
  have h21 : b.length ≤ 21 := by omega
  have hmin22 : ¬22 ≤ b.length := by omega
  have hmin42 : ¬42 ≤ b.length := by omega
  by_cases ht : u16At b 12 = Config.ethertypeArp <;>
    simp [tableClass, opcodeRows, rowApplies_bounded, rowApplies_open hl, w22_etherMask_iff, h13, h14, h21, hmin22,
      hmin42, ht]

/-- With 22 bytes every field a row tests is there. -/
theorem tableClass_whole (h22 : 22 ≤ b.length) :
    tableClass b = some (
      if u16At b 12 ≠ Config.ethertypeArp then .frameOther
      else if (b.drop 14).take 6 ≠ gateBytes then .arpUnsupported
      else if b.length < 42 then .arpShortBody
      else if u16At b 20 = Config.opRequest then .arpRequest
      else if u16At b 20 = Config.opReply then .arpReply
      else .arpOtherOp) := by
  have h13 : ¬b.length ≤ 13 := by omega
  have h14 : 14 ≤ b.length := by omega
  have h21 : ¬b.length ≤ 21 := by omega
  have h41 : b.length ≤ 41 ↔ b.length < 42 := by omega
  have h42 : 42 ≤ b.length ↔ ¬b.length < 42 := by omega
  simp only [tableClass, opcodeRows, rowApplies_bounded, rowApplies_open hl, w22_etherMask_iff, w22_gateMask_iff h22,
    w22_requestMask_iff h22, w22_replyMask_iff h22, h13, h14, h21, h22, h41, h42, List.find?_cons, List.find?_nil]
  by_cases ht : u16At b 12 = Config.ethertypeArp
  case neg => simp [ht]
  by_cases hg : (b.drop 14).take 6 = gateBytes
  case neg => simp [ht, hg]
  by_cases hs : b.length < 42
  case pos => simp [ht, hg, hs]
  by_cases hreq : u16At b 20 = Config.opRequest
  case pos => simp [ht, hg, hs, hreq]
  by_cases hrep : u16At b 20 = Config.opReply
  case pos =>
    have hne : Config.opReply ≠ Config.opRequest := by decide
    simp [ht, hg, hs, hrep, hne]
  case neg => simp [ht, hg, hs, hreq, hrep]

end

/-- Settles O4: bounds of the length settle which rows can apply, and their masks test what the decoder tests. -/
theorem opcodeTableAgreesWithDecoder : Obligations.OpcodeTableAgreesWithDecoder := by
  intro b hl
  refine ⟨decodeFrame b, decode_fits hl, ?_⟩
  rw [classOf_decodeFrame_eq]
  by_cases h14 : b.length < 14
  · rw [tableClass_runt h14, if_pos h14]
  by_cases h22 : b.length < 22
  · rw [tableClass_short hl (by omega) h22, if_neg h14, if_pos h22, ite_not]
  · rw [tableClass_whole hl (by omega), if_neg h14, if_neg h22]

/-! ### Sample frames and shorthands (R89) -/

/-- Settles O5: each frame is the encoding of its instruction. -/
theorem sampleFramesDecode : Obligations.SampleFramesDecode :=
  ⟨decodeOfEncodedInstruction _ _ rfl rfl, decodeOfEncodedInstruction _ _ rfl rfl,
    decodeOfEncodedInstruction _ _ rfl rfl, decodeOfEncodedInstruction _ _ rfl rfl,
    decodeOfEncodedInstruction _ _ rfl rfl⟩

/-- Settles O6: the shorthands are the frames that the two instructions encode to, with nothing after the message. -/
theorem shorthandsAreRequestAndReplyFrames : Obligations.ShorthandsAreRequestAndReplyFrames := by
  intro dst src sha tha spa tpa
  exact ⟨rfl, rfl, decodeOfEncodedInstruction _ _ rfl rfl, decodeOfEncodedInstruction _ _ rfl rfl⟩

end Sys2Proof.Machine
end

section
/-! PROOFS. What becomes of each frame class (30_encoding.md R84): the drops (R183), the reply (R82, R156), and what the
reply does not depend on (R136, R141, R144); and the step that fetches a frame and runs its instruction (R158). -/

namespace Sys2Proof.Machine

/-- The end of a cycle without a write is the drop, written out (R183). -/
theorem endCycle_eq_dropped (c : OutcomeCode) (s : State) : endCycle c s = dropped c s := rfl

/-- Settles O26: the drops of classes 1 and 2. -/
theorem runtAndOtherFramesAreDropped : Obligations.RuntAndOtherFramesAreDropped := by
  intro s h hp
  simp only [← endCycle_eq_dropped]
  exact ⟨fun _ hb => exec_frameRunt h hp hb, fun dst src _ p he => exec_frameOther h hp dst src he p⟩

/-- Settles O27: the drops of classes 3, 4 and 5. -/
theorem undecodableArpFramesAreDropped : Obligations.UndecodableArpFramesAreDropped := by
  intro s h hp
  simp only [← endCycle_eq_dropped]
  exact ⟨fun dst src _ hl => exec_arpShortHdr h hp dst src hl,
    fun dst src _ hl hg => exec_arpUnsupported h hp dst src hl hg,
    fun dst src oper _ hl => exec_arpShortBody h hp dst src oper hl⟩

/-- Settles O28: only a Request is answered. -/
theorem repliesAndOtherOperationsAreDropped : Obligations.RepliesAndOtherOperationsAreDropped := by
  intro s h hp
  simp only [← endCycle_eq_dropped]
  exact ⟨exec_arpReply h hp,
    fun dst src _ sha spa tha tpa tail ho _ => exec_arpOtherOp h hp dst src sha spa tha tpa tail ho⟩

/-! ### The reply -/

/-- The bytes of a 32-bit field, by division (R54). -/
theorem u32Bytes_eq_u32Wire (v : U32) : u32Bytes v = u32Wire v := by
  simp only [u32Bytes, wire4Bytes, hton32, u32Wire, extract_eq_ofNat, pow_zero, Nat.div_one]

/-- The reply to a supported request, wrapped and encoded, is the 42 bytes of R82's last column (R142, R156). -/
theorem encodeEthernet_wrapReply_replyTo (sha : HA) (spa : PA) (tha : HA) (tpa : PA) (la : HA) :
    encodeEthernet (wrapReply (supportedMessage Config.opRequest sha spa tha tpa)
      (replyTo (supportedMessage Config.opRequest sha spa tha tpa) la) la) = replyWire la sha spa tpa := by
  have hfixed : u16Bytes Config.ethertypeArp ++ arpFixedBytes Config.opReply =
      [0x08#8, 0x06#8, 0x00#8, 0x01#8, 0x08#8, 0x00#8, 0x06#8, 0x04#8, 0x00#8, 0x02#8] := by decide
  rw [replyWire, ← u32Bytes_eq_u32Wire, ← u32Bytes_eq_u32Wire, ← hfixed]
  rfl

/-- The end of a cycle that wrote `t` and was answered `a`, written out: the write, its answer and the outcome are in
the trace, and no working register holds a value (R156, R186). -/
def answered (t : List Byte) (a : WriteAnswer) (rest : List WriteAnswer) (s : State) : State :=
  { s with phase := .readFrame, rxbuf := [], rxlen := none, eth := none, arp := none, rpl := none, txbuf := [],
           txlen := none, wrAnswers := rest,
           trace := s.trace ++ [.writeIssued t, .writeAnswered a, .outcome (writeOutcome a)] }

/-- The write out and back again leaves the port as it was, idle. -/
theorem endCycle_eq_answered {s : State} (hp : s.port = .idle) (t : List Byte) (a : WriteAnswer)
    (rest : List WriteAnswer) :
    endCycle (writeOutcome a) (answerWrite a rest (startWrite t s)) = answered t a rest s := by
  have htrace : s.trace ++ [.writeIssued t, .writeAnswered a, .outcome (writeOutcome a)] =
      s.trace ++ [.writeIssued t] ++ [.writeAnswered a] ++ [.outcome (writeOutcome a)] := by simp
  rw [answered, hp, htrace]
  rfl

/-- Class 6 with an answer to the write: the reply goes out and the cycle ends (R156). -/
theorem exec_arpRequest_answered {s : State} {a : WriteAnswer} {rest : List WriteAnswer} (h : s.phase ≠ .halted)
    (hp : s.port = .idle) (hw : s.wrAnswers = a :: rest) (dst src sha : HA) (spa : PA) (tha : HA) (tpa : PA)
    (tail : List Byte) :
    exec (.arpRequest dst src sha spa tha tpa tail) s =
      .next (answered (replyWire s.localHA sha spa tpa) a rest s) := by
  rw [exec_arpRequest h hp, phaseEncodeAndWrite_idle (by exact hp) rfl rfl, finishWrite_cons (by exact hw),
    ← encodeEthernet_wrapReply_replyTo sha spa tha tpa s.localHA, ← endCycle_eq_answered hp]
  rfl

/-- Settles O29, for either answer to the write. -/
theorem requestsAreAnswered : Obligations.RequestsAreAnswered := by
  intro dst src sha spa tha tpa tail a rest s h hp hw
  rw [exec_arpRequest_answered h hp hw]
  cases a <;> rfl

/-- In `Halted` an instruction of a frame class changes nothing (R157). -/
theorem exec_frameClass_halted {i : Instr} {s : State} (h : s.phase = .halted) (hc : (classOf i).isSome) :
    exec i s = .next s := by
  obtain ⟨k, hk⟩ := exec_eq_withFrame hc
  exact (hk s).trans (unlessHalted_halted h)

/-- With a transaction in flight no frame is taken (R62). -/
theorem exec_frameClass_busy {i : Instr} {s : State} (h : s.phase ≠ .halted) (hp : s.port ≠ .idle)
    (hc : (classOf i).isSome) : exec i s = .fault .transactionInFlight := by
  obtain ⟨k, hk⟩ := exec_eq_withFrame hc
  exact (hk s).trans (withFrame_busy h hp)

/-- Settles O31: the end of an answered request is the same for every header, `tha` and tail, and its trace and phase
for every `LOCAL_PA`; where no frame can be taken nothing of the frame is read. -/
theorem replyIgnoresHeaderTargetAndTail : Obligations.ReplyIgnoresHeaderTargetAndTail := by
  intro dst dst' src src' sha spa tha tha' tpa tail tail' s lp hne
  obtain ⟨a, rest, hw⟩ := List.exists_cons_of_ne_nil hne
  refine ⟨?_, fun h hp => ⟨_, _, exec_arpRequest_answered h hp hw dst src sha spa tha tpa tail,
    exec_arpRequest_answered (s := { s with localPA := lp }) h hp hw dst src sha spa tha tpa tail, rfl, rfl⟩⟩
  by_cases h : s.phase = .halted
  · exact (exec_frameClass_halted h rfl).trans (exec_frameClass_halted h rfl).symm
  by_cases hp : s.port = .idle
  · rw [exec_arpRequest_answered h hp hw, exec_arpRequest_answered h hp hw]
  · exact (exec_frameClass_busy h hp rfl).trans (exec_frameClass_busy h hp rfl).symm

/-! ### Fetching -/

/-- The state in which a frame the device has just delivered is in hand (R151). -/
def frameRead (b : List Byte) (rest : List ReadAnswer) (s : State) : State :=
  setPhase .decodeEthernet (captureFrame b { s with
    port := .idle, rxAnswers := rest, trace := s.trace ++ readIssue s.port ++ [.readAnswered (.frame b)] })

@[simp] theorem heldFrame_frameRead (b : List Byte) (rest : List ReadAnswer) (s : State) :
    heldFrame (frameRead b rest s) = .ok b := by
  rw [frameRead, heldFrame_setPhase, heldFrame_captureFrame]

/-- From `ReadFrame`, with a frame as the device's next answer, the step reads the frame and runs its instruction
(R158, D1). -/
theorem step_frame_answered {s : State} {b : List Byte} {rest : List ReadAnswer} {i : Instr}
    (hph : s.phase = .readFrame) (hp : s.port = .idle ∨ s.port = .reading) (hr : s.rxAnswers = .frame b :: rest)
    (hd : decode b = .instr i) : step s = exec i (frameRead b rest s) := by
  have hread : phaseReadFrame s = .next (frameRead b rest s) := by
    simp only [phaseReadFrame, readTransaction_answered hp hr (length_of_decode hd), frameRead]
  have hrun : afterRead (frameRead b rest s) = runHeld exec (frameRead b rest s) := rfl
  have hfetch : fetchHeld (frameRead b rest s) = .ok i := by simp only [fetchHeld, heldFrame_frameRead, hd]
  simp only [step, hph, hread, andThen_next, hrun, runHeld, hfetch]

/-- What `decodeTableWord` reads is the instruction of the word's frame, and the row has bits (log entry 11). -/
theorem decode_tableFrame {nbits w : Nat} {i : Instr} (h : decodeTableWord nbits w = some i) :
    nbits ≠ 0 ∧ decode (tableFrame nbits w) = .instr i := by
  unfold decodeTableWord at h
  split at h
  · cases h
  rename_i hn
  cases hd : decode (tableFrame nbits w) with
  | instr j => rw [hd] at h; cases h; exact ⟨hn, rfl⟩
  | rejected e => rw [hd] at h; cases h

/-- Settles O43: the step reads the word's frame, which is then in hand, and runs its instruction. -/
theorem fetchWordRunsOnTheNextStep : Obligations.FetchWordRunsOnTheNextStep := by
  intro s nbits w i h
  obtain ⟨hn, hd⟩ := decode_tableFrame h
  rw [State.withFetchWord, if_neg hn]
  exact ⟨frameRead (tableFrame nbits w) s.rxAnswers (presentFrame (tableFrame nbits w) s),
    step_frame_answered rfl (.inl rfl) rfl hd, rfl, rfl, heldFrame_frameRead .., rfl, rfl, rfl, rfl⟩

end Sys2Proof.Machine
end

section
/-! PROOFS. The byte-order converter (40_byteorder.md R110 to R115): the conversions as arithmetic, each the other's
inverse, and the swaps and lanes of R114 as the reversal of the bytes between the two conversions. -/

namespace Sys2Proof

/-- The 2 bytes in the opposite order. -/
def Wire2.reverse (b : Wire2) : Wire2 := ⟨b.b1, b.b0⟩

/-- The 4 bytes in the opposite order. -/
def Wire4.reverse (b : Wire4) : Wire4 := ⟨b.b3, b.b2, b.b1, b.b0⟩

@[simp] theorem Wire2.reverse_reverse (b : Wire2) : b.reverse.reverse = b := rfl
@[simp] theorem Wire4.reverse_reverse (b : Wire4) : b.reverse.reverse = b := rfl

end Sys2Proof

namespace Sys2Proof.Machine

/-! ### The conversions as arithmetic (R110 to R113) -/

/-- `NTOH16` is the number whose more significant byte comes first (R110). -/
theorem ntoh16_eq_ofNat (b : Wire2) : ntoh16 b = BitVec.ofNat 16 (2 ^ 8 * b.b0.toNat + b.b1.toNat) := by
  rw [ntoh16_eq_append, ← append_toNat, BitVec.ofNat_toNat, BitVec.setWidth_eq]

/-- `NTOH32` is the number whose bytes come most significant first (R111). -/
theorem ntoh32_eq_ofNat (b : Wire4) :
    ntoh32 b = BitVec.ofNat 32
      (2 ^ 24 * b.b0.toNat + 2 ^ 16 * b.b1.toNat + 2 ^ 8 * b.b2.toNat + b.b3.toNat) := by
  have hsum : 2 ^ 24 * b.b0.toNat + 2 ^ 16 * b.b1.toNat + 2 ^ 8 * b.b2.toNat + b.b3.toNat =
      (b.b0 ++ b.b1 ++ b.b2 ++ b.b3).toNat := by
    simp only [append_toNat]
    omega
  rw [ntoh32_eq_append, hsum, BitVec.ofNat_toNat, BitVec.setWidth_eq]

/-- `HTON16` gives the two bytes by division (R112). -/
theorem hton16_eq_ofNat (v : U16) : hton16 v = ⟨BitVec.ofNat 8 (v.toNat / 2 ^ 8), BitVec.ofNat 8 v.toNat⟩ := by
  simp only [hton16, extract_eq_ofNat, pow_zero, Nat.div_one]

/-- `HTON32` gives the four bytes by division (R113). -/
theorem hton32_eq_ofNat (v : U32) :
    hton32 v = ⟨BitVec.ofNat 8 (v.toNat / 2 ^ 24), BitVec.ofNat 8 (v.toNat / 2 ^ 16),
      BitVec.ofNat 8 (v.toNat / 2 ^ 8), BitVec.ofNat 8 v.toNat⟩ := by
  simp only [hton32, extract_eq_ofNat, pow_zero, Nat.div_one]

/-- Settles O7: the operation returns the conversion, and the conversion is the number. -/
theorem ntohReturnsBigEndianValue : Obligations.NtohReturnsBigEndianValue := by
  intro s h
  simp only [← ntoh16_eq_ofNat, ← ntoh32_eq_ofNat]
  exact ⟨fun _ => returnValue_run h, fun _ => returnValue_run h⟩

/-- Settles O8: the operation returns the conversion, and the conversion's bytes are the quotients. -/
theorem htonReturnsMostSignificantByteFirst : Obligations.HtonReturnsMostSignificantByteFirst := by
  intro s h
  simp only [← hton16_eq_ofNat, ← hton32_eq_ofNat]
  exact ⟨fun _ => returnValue_run h, fun _ => returnValue_run h⟩

/-- Settles O12: both ways round, at both widths. -/
theorem conversionsAreInverse : Obligations.ConversionsAreInverse :=
  ⟨ntoh16_hton16, hton16_ntoh16, ntoh32_hton32, hton32_ntoh32⟩

/-! ### The swaps (R114) -/

/-- A swap is the reversal of the bytes between the two conversions (R114). -/
theorem bswap16_eq (w : U16) : bswap16 w = ntoh16 (hton16 w).reverse := rfl
theorem bswap32_eq (w : U32) : bswap32 w = ntoh32 (hton32 w).reverse := rfl

@[simp] theorem bswap16_ntoh16 (b : Wire2) : bswap16 (ntoh16 b) = ntoh16 b.reverse := by
  rw [bswap16_eq, hton16_ntoh16]

@[simp] theorem bswap32_ntoh32 (b : Wire4) : bswap32 (ntoh32 b) = ntoh32 b.reverse := by
  rw [bswap32_eq, hton32_ntoh32]

@[simp] theorem hton16_bswap16 (w : U16) : hton16 (bswap16 w) = (hton16 w).reverse := by
  rw [bswap16_eq, hton16_ntoh16]

@[simp] theorem hton32_bswap32 (w : U32) : hton32 (bswap32 w) = (hton32 w).reverse := by
  rw [bswap32_eq, hton32_ntoh32]

theorem bswap16_append (a b : Byte) : bswap16 (a ++ b) = b ++ a := by
  have h : bswap16 (ntoh16 ⟨a, b⟩) = ntoh16 ⟨b, a⟩ := bswap16_ntoh16 _
  simpa only [ntoh16_eq_append] using h

theorem bswap32_append (a b c d : Byte) : bswap32 (a ++ b ++ c ++ d) = d ++ c ++ b ++ a := by
  have h : bswap32 (ntoh32 ⟨a, b, c, d⟩) = ntoh32 ⟨d, c, b, a⟩ := bswap32_ntoh32 _
  simpa only [ntoh32_eq_append] using h

@[simp] theorem bswap16_bswap16 (w : U16) : bswap16 (bswap16 w) = w := by
  rw [bswap16_eq w, bswap16_ntoh16, Wire2.reverse_reverse, ntoh16_hton16]

@[simp] theorem bswap32_bswap32 (w : U32) : bswap32 (bswap32 w) = w := by
  rw [bswap32_eq w, bswap32_ntoh32, Wire4.reverse_reverse, ntoh32_hton32]

/-! ### The lanes (R114) -/

/-- On a big host the lanes are in wire order; on a little one they are reversed (R114). -/
theorem load16_big (b : Wire2) : load16 .big b = ntoh16 b := (ntoh16_eq_append b).symm
theorem load16_little (b : Wire2) : load16 .little b = ntoh16 b.reverse := (ntoh16_eq_append b.reverse).symm
theorem load32_big (b : Wire4) : load32 .big b = ntoh32 b := (ntoh32_eq_append b).symm
theorem load32_little (b : Wire4) : load32 .little b = ntoh32 b.reverse := (ntoh32_eq_append b.reverse).symm

theorem store16_big (w : U16) : store16 .big w = hton16 w := rfl
theorem store16_little (w : U16) : store16 .little w = (hton16 w).reverse := rfl
theorem store32_big (w : U32) : store32 .big w = hton32 w := rfl
theorem store32_little (w : U32) : store32 .little w = (hton32 w).reverse := rfl

/-- On a little host the swap undoes the reversal that the load brings (R114). -/
theorem bswap16_load16_little (b : Wire2) : bswap16 (load16 .little b) = ntoh16 b := by
  rw [load16_little, bswap16_ntoh16, Wire2.reverse_reverse]

theorem bswap32_load32_little (b : Wire4) : bswap32 (load32 .little b) = ntoh32 b := by
  rw [load32_little, bswap32_ntoh32, Wire4.reverse_reverse]

/-- On a little host the swap undoes the reversal that the store brings (R114). -/
theorem store16_little_bswap16 (v : U16) : store16 .little (bswap16 v) = hton16 v := by
  rw [store16_little, hton16_bswap16, Wire2.reverse_reverse]

theorem store32_little_bswap32 (v : U32) : store32 .little (bswap32 v) = hton32 v := by
  rw [store32_little, hton32_bswap32, Wire4.reverse_reverse]

theorem laneNtoh16_eq (o : LaneOrder) (b : Wire2) : laneNtoh16 o b = ntoh16 b :=
  match o with
  | .big => load16_big b
  | .little => bswap16_load16_little b

theorem laneNtoh32_eq (o : LaneOrder) (b : Wire4) : laneNtoh32 o b = ntoh32 b :=
  match o with
  | .big => load32_big b
  | .little => bswap32_load32_little b

theorem laneHton16_eq (o : LaneOrder) (v : U16) : laneHton16 o v = hton16 v :=
  match o with
  | .big => store16_big v
  | .little => store16_little_bswap16 v

theorem laneHton32_eq (o : LaneOrder) (v : U32) : laneHton32 o v = hton32 v :=
  match o with
  | .big => store32_big v
  | .little => store32_little_bswap32 v

/-- Settles O11: on bytes a swap is their reversal, so it undoes itself, and it undoes the reversal that a little
host's lanes bring. -/
theorem byteSwapAndLaneView : Obligations.ByteSwapAndLaneView := by
  refine ⟨fun a b s h => ?_, fun a b c d s h => ?_, bswap16_bswap16, bswap32_bswap32,
    fun b => ⟨(load16_big b).symm, (bswap16_load16_little b).symm⟩,
    fun b => ⟨(load32_big b).symm, (bswap32_load32_little b).symm⟩,
    fun o v => ⟨laneHton16_eq o v, ?_⟩, fun o v => ⟨laneHton32_eq o v, ?_⟩⟩
  · rw [← bswap16_append a b]; exact returnValue_run h
  · rw [← bswap32_append a b c d]; exact returnValue_run h
  · rw [laneNtoh16_eq, ntoh16_hton16]
  · rw [laneNtoh32_eq, ntoh32_hton32]

end Sys2Proof.Machine
end

section
/-! PROOFS. The Ethernet codec (41_ethernet_codec.md R120 to R122): what its two operations return, and that each undoes
the other. -/

namespace Sys2Proof.Machine

/-- A serialized frame is its header before its payload (R80, R121). -/
theorem encodeEthernet_eq_frameBytes (f : EthernetFrame) :
    encodeEthernet f = frameBytes f.dst f.src f.etype f.payload := rfl

/-- Settles O15: a sequence of at least 14 bytes is a header before a payload, and a header before a payload decodes to
the fields it is the serialization of. -/
theorem ethernetCodecRoundTrips : Obligations.EthernetCodecRoundTrips := by
  refine ⟨fun b h => ?_, fun f => ?_, fun b h => decodeEthernet_short h⟩
  · obtain ⟨dst, src, etype, p, rfl⟩ := exists_frameBytes h
    exact ⟨⟨dst, src, etype, p⟩, decodeEthernet_frameBytes dst src etype p, encodeEthernet_eq_frameBytes _⟩
  · rw [encodeEthernet_eq_frameBytes, decodeEthernet_frameBytes]

/-- Settles O13: the operation returns what the parser answers, a failure or a frame. -/
theorem decodeEthernetReturnsFrameOrTooShort : Obligations.DecodeEthernetReturnsFrameOrTooShort := by
  intro s hs
  have hrun (b : List Byte) : exec (.decodeEthernet b) s = .next (setRet (frameResult (decodeEthernet b)) s) :=
    returnValue_run hs
  constructor
  · intro b h
    rw [hrun, decodeEthernet_short h]
    rfl
  · intros
    rw [hrun, decodeEthernet_header, ntoh16_eq_ofNat]
    rfl

/-- The wire order of a hardware address is the order of its bytes (R55). -/
theorem haBytes_eq_haWire (a : HA) : haBytes a = haWire a := rfl

/-- The bytes of a 16-bit field, by division (R54, R112). -/
theorem u16Bytes_eq_u16Wire (v : U16) : u16Bytes v = u16Wire v := by
  rw [u16Bytes, hton16_eq_ofNat]
  rfl

/-- Settles O14: the operation returns the serialization, and its header is the fields as they lie on the wire. -/
theorem encodeEthernetReturnsHeaderAndPayload : Obligations.EncodeEthernetReturnsHeaderAndPayload := by
  intro f s hs
  rw [← haBytes_eq_haWire, ← haBytes_eq_haWire, ← u16Bytes_eq_u16Wire]
  exact returnValue_run hs

end Sys2Proof.Machine
end

section
/-! PROOFS. The ARP codec (42_arp_codec.md R130 to R133): what its three operations return, and that the decoder and the
encoder undo each other on valid messages and on nothing else. -/

namespace Sys2Proof.Machine

/-! ### The decoder on the bytes of a message (R130) -/

section
variable (o0 o1 : Byte) (rest : List Byte)

/-- The supported fixed header, then fewer than 20 bytes (R130 step 4). -/
theorem decodeArp_header_short (h : rest.length < 20) :
    decodeArp ([0x00#8, 0x01#8, 0x08#8, 0x00#8, 0x06#8, 0x04#8, o0, o1] ++ rest) = .raise .frameTooShort := by
  rw [decodeArp_gate (by simp) rfl, if_pos (by simp; omega)]

/-- Any other whole header, whatever follows it (R130 step 3). -/
theorem decodeArp_header_unsupported {h0 h1 t0 t1 hl pl : Byte}
    (h : ¬(h0 = 0x00#8 ∧ h1 = 0x01#8 ∧ t0 = 0x08#8 ∧ t1 = 0x00#8 ∧ hl = 0x06#8 ∧ pl = 0x04#8)) :
    decodeArp ([h0, h1, t0, t1, hl, pl, o0, o1] ++ rest) = .raise .unsupported :=
  decodeArp_unsupported (by simp) (by simpa [gateBytes] using h)

/-- A whole supported message, its bytes written out, whatever follows it (R130 step 5, R136). -/
theorem decodeArp_message (a0 a1 a2 a3 a4 a5 p0 p1 p2 p3 c0 c1 c2 c3 c4 c5 q0 q1 q2 q3 : Byte) :
    decodeArp ([0x00#8, 0x01#8, 0x08#8, 0x00#8, 0x06#8, 0x04#8, o0, o1, a0, a1, a2, a3, a4, a5, p0, p1, p2, p3,
        c0, c1, c2, c3, c4, c5, q0, q1, q2, q3] ++ rest) =
      .ok (supportedMessage (ntoh16 ⟨o0, o1⟩) ⟨a0, a1, a2, a3, a4, a5⟩ (ntoh32 ⟨p0, p1, p2, p3⟩)
        ⟨c0, c1, c2, c3, c4, c5⟩ (ntoh32 ⟨q0, q1, q2, q3⟩)) := by
  have hty : ntoh16 ⟨0x00#8, 0x01#8⟩ = Config.htypeEthernet := by decide
  have pty : ntoh16 ⟨0x08#8, 0x00#8⟩ = Config.ptypeIpv4 := by decide
  rw [decodeArp_gate (by simp) rfl, if_neg (by simp), supportedMessage, ← hty, ← pty]
  rfl

end

/-- Settles O16: the operation returns what the decoder answers, and the decoder's tests come in R130's order. -/
theorem decodeArpReturnsMessageOrFailure : Obligations.DecodeArpReturnsMessageOrFailure := by
  intro s hs
  have hrun (p : List Byte) : exec (.decodeArp p) s = .next (setRet (messageResult (decodeArp p)) s) :=
    returnValue_run hs
  refine ⟨fun p h => ?_, fun h0 h1 t0 t1 hl pl o0 o1 rest h => ?_, fun o0 o1 rest h => ?_, ?_⟩
  · rw [hrun, decodeArp_short h]
    rfl
  · rw [hrun, decodeArp_header_unsupported o0 o1 rest h]
    rfl
  · rw [hrun, decodeArp_header_short o0 o1 rest h]
    rfl
  · intros
    rw [hrun, decodeArp_message, ntoh16_eq_ofNat, ntoh32_eq_ofNat, ntoh32_eq_ofNat]
    rfl

/-! ### The round trips (R133) -/

/-- What decodes is a supported message before a tail, and the answer is that message (R130 step 5). -/
theorem exists_arpBytes_of_decodeArp {p : List Byte} {m : ArpMessage} (h : decodeArp p = .ok m) :
    ∃ oper sha spa tha tpa tail, p = arpBytes oper sha spa tha tpa ++ tail ∧
      m = supportedMessage oper sha spa tha tpa := by
  by_cases h8 : p.length < 8
  · rw [decodeArp_short h8] at h; cases h
  have h8 := Nat.le_of_not_lt h8
  by_cases hg : p.take 6 = gateBytes
  case neg => rw [decodeArp_unsupported h8 hg] at h; cases h
  obtain ⟨oper, rest, rfl⟩ := exists_arpFixedBytes h8 hg
  by_cases h20 : rest.length < 20
  · rw [decodeArp_arpFixedBytes_short h20] at h; cases h
  obtain ⟨sha, spa, tha, tpa, tail, hp⟩ := exists_arpBytes oper (Nat.le_of_not_lt h20)
  rw [hp, decodeArp_arpBytes] at h
  cases h
  exact ⟨oper, sha, spa, tha, tpa, tail, hp, rfl⟩

/-- A valid message is the supported message of its other five fields (R132). -/
theorem eq_supportedMessage {m : ArpMessage} (h : validArp m = true) :
    m = supportedMessage m.oper m.sha m.spa m.tha m.tpa := by
  obtain ⟨htype, ptype, hlen, plen, oper, sha, spa, tha, tpa⟩ := m
  obtain ⟨rfl, rfl, rfl, rfl⟩ := (validArp_iff _).1 h
  rfl

/-- A supported message is encoded as its 28 bytes (R81, R131). -/
theorem encodeArp_supportedMessage (oper : U16) (sha : HA) (spa : PA) (tha : HA) (tpa : PA) :
    encodeArp (supportedMessage oper sha spa tha tpa) = arpBytes oper sha spa tha tpa := rfl

/-- The encoding of a message passes the decoder's gate just when the message is valid (R130 step 3, R132). -/
theorem take_six_encodeArp (m : ArpMessage) : (encodeArp m).take 6 = gateBytes ↔ validArp m = true := by
  have hty : u16At (encodeArp m) 0 = m.htype := ntoh16_hton16 m.htype
  have pty : u16At (encodeArp m) 2 = m.ptype := ntoh16_hton16 m.ptype
  rw [take_six_eq_gateBytes_iff (by simp), hty, pty]
  exact (validArp_iff m).symm

/-- Settles O19: valid messages are the supported ones, whose bytes decode to them; what decodes is such bytes and a
tail; and the encoding of an invalid message fails the gate. -/
theorem arpCodecRoundTrips : Obligations.ArpCodecRoundTrips := by
  refine ⟨fun m h => ?_, fun p m h => ?_, fun m h => ?_⟩
  · have hd := decodeArp_arpBytes m.oper m.sha m.spa m.tha m.tpa []
    rwa [List.append_nil, ← encodeArp_supportedMessage, ← eq_supportedMessage h] at hd
  · obtain ⟨oper, sha, spa, tha, tpa, tail, rfl, rfl⟩ := exists_arpBytes_of_decodeArp h
    exact (List.take_left' (arpBytes_length oper sha spa tha tpa)).symm
  · have hg : (encodeArp m).take 6 ≠ gateBytes := fun hg => by
      rw [(take_six_encodeArp m).1 hg] at h; cases h
    exact decodeArp_unsupported (by simp) hg

/-! ### The encoder and the validity gate (R131, R132) -/

/-- Settles O17: the operation returns the encoding, each field as it lies on the wire. -/
theorem encodeArpReturnsFixedLayout : Obligations.EncodeArpReturnsFixedLayout := by
  intro m s hs
  refine ⟨encodeArp m, encodeArp_length m, ?_, returnValue_run hs⟩
  simp only [← u16Bytes_eq_u16Wire, ← u32Bytes_eq_u32Wire, ← haBytes_eq_haWire]
  rfl

/-- Settles O18: the operation returns the gate's answer, which is the four tests, and what decodes passes the gate. -/
theorem validArpReadsFourFields : Obligations.ValidArpReadsFourFields := by
  refine ⟨fun m s hs => ?_, fun p m h => decodeArp_ok_valid h⟩
  simp only [← validArp_iff, Bool.decide_eq_true]
  exact returnValue_run hs

end Sys2Proof.Machine
end

section
/-! PROOFS. The ARP responder (43_arp_responder.md R140 to R144): what `handle` answers, that it filters no address, and
where the frame around its reply goes. -/

namespace Sys2Proof.Machine

/-- `handle` answers exactly the valid Requests, with the reply of R140. -/
theorem handle_eq_ok_iff {m r : ArpMessage} {la : HA} {lp : PA} :
    handle m la lp = .ok r ↔ (m.oper = 1#16 ∧ validArp m = true) ∧ replyTo m la = r := by
  rw [handle_eq]
  split <;> simp [*]

/-- Settles O20: the operation returns what `handle` answers, and a Request is valid when it passes the four tests of
the gate. -/
theorem handleReturnsReplyOrNoReply : Obligations.HandleReturnsReplyOrNoReply := by
  intro m la lp s hs
  have hrun : exec (.handle m la lp) s = .next (setRet (messageResult (handle m la lp)) s) := returnValue_run hs
  simp only [hrun, handle_eq, ← validArp_iff]
  split <;> rfl

/-- Settles O21: the reply's `spa` is the request's `tpa`, and no answer mentions `LP`. -/
theorem handleFiltersNoAddress : Obligations.HandleFiltersNoAddress := by
  refine ⟨fun m la lp hv ho => ?_, fun m la lp lp' => ?_⟩
  · exact ⟨replyTo m la, handle_eq_ok_iff.2 ⟨⟨ho, hv⟩, rfl⟩, rfl⟩
  · rw [handle_eq, handle_eq]

/-- Settles O22: the frame is `wrapReply`'s, and a reply that `handle` gave carries the addresses of that frame: its
`tha` is the request's `sha`, its `sha` is `LA`. -/
theorem wrapReplyAddressesTheRequester : Obligations.WrapReplyAddressesTheRequester := by
  intro m r la s hs
  refine ⟨wrapReply m r la, returnValue_run hs, rfl, fun lp h => ?_⟩
  obtain ⟨-, rfl⟩ := handle_eq_ok_iff.1 h
  exact ⟨rfl, rfl, encodeArp_length _, wrapReply_length ..⟩

end Sys2Proof.Machine
end

section
/-! PROOFS. The two transactions (44_frame_dispatcher.md R161, R162), and each phase of the dispatcher by itself (R151 to
R157). -/

namespace Sys2Proof.Machine

/-! ### The transactions (R161, R162) -/

/-- The state once the device has answered the cycle's read, issued now or in flight (R161). -/
def readDone (a : ReadAnswer) (rest : List ReadAnswer) (s : State) : State :=
  { s with port := .idle, rxAnswers := rest, trace := s.trace ++ readIssue s.port ++ [.readAnswered a] }

/-- The state in which the device has not answered the read (R195). -/
def readWaiting (s : State) : State := { s with port := .reading, trace := s.trace ++ readIssue s.port }

section
variable {s : State}

theorem readDone_idle (hp : s.port = .idle) (a : ReadAnswer) (rest : List ReadAnswer) :
    readDone a rest s =
      { s with rxAnswers := rest, trace := s.trace ++ [.readIssued Config.maxLen, .readAnswered a] } := by
  simp [readDone, readIssue, hp]

theorem readDone_reading (hp : s.port = .reading) (a : ReadAnswer) (rest : List ReadAnswer) :
    readDone a rest s = { s with port := .idle, rxAnswers := rest, trace := s.trace ++ [.readAnswered a] } := by
  simp [readDone, readIssue, hp]

theorem readWaiting_idle (hp : s.port = .idle) :
    readWaiting s = { s with port := .reading, trace := s.trace ++ [.readIssued Config.maxLen] } := by
  simp [readWaiting, readIssue, hp]

/-- Waiting on changes nothing (R224). -/
theorem readWaiting_reading (hp : s.port = .reading) : readWaiting s = s := by
  cases s
  cases hp
  simp [readWaiting, readIssue]

/-- The read has no answer yet, whether it goes out now or is in flight (R195). -/
theorem readTransaction_blocked (hp : s.port = .idle ∨ s.port = .reading) (hr : s.rxAnswers = []) :
    readTransaction Config.maxLen s = .ok (none, readWaiting s) := by
  rcases hp with hp | hp
  · rw [readTransaction_idle_blocked hp hr, readWaiting_idle hp]
    rfl
  · rw [readTransaction_reading_blocked hp hr, readWaiting_reading hp]

section
variable (hs : s.phase ≠ .halted)
include hs

theorem exec_readFrame_answered (hp : s.port = .idle ∨ s.port = .reading) {a : ReadAnswer} {rest : List ReadAnswer}
    (hr : s.rxAnswers = a :: rest) (hl : answerLength a ≤ Config.maxLen) :
    exec (.readFrame Config.maxLen) s = .next (setRet (readResult a) (readDone a rest s)) := by
  simp only [exec, execReadFrame, unlessHalted_run hs, readTransaction_answered hp hr hl, if_pos hl, readDone]

theorem exec_readFrame_blocked (hp : s.port = .idle ∨ s.port = .reading) (hr : s.rxAnswers = []) :
    exec (.readFrame Config.maxLen) s = .next (readWaiting s) := by
  simp only [exec, execReadFrame, unlessHalted_run hs, readTransaction_blocked hp hr]

section
variable {b : List Byte} {t : State} (ht : writeTransaction b s = .ok (awaitWrite t))
include ht

/-- The device's next answer is the answer to the write issued or taken up (R162). -/
theorem exec_writeFrame_answered {a : WriteAnswer} {rest : List WriteAnswer} (hw : t.wrAnswers = a :: rest) :
    exec (.writeFrame b) s = .next (setRet (writeResult a) (answerWrite a rest t)) := by
  simp only [exec, execWriteFrame, unlessHalted_run hs, ht, awaitWrite_cons hw]

/-- Without one the write stays in flight (R224). -/
theorem exec_writeFrame_blocked (hw : t.wrAnswers = []) : exec (.writeFrame b) s = .next t := by
  simp only [exec, execWriteFrame, unlessHalted_run hs, ht, awaitWrite_nil hw]

end
end
end

/-- Settles O23: the operation returns the answer to the read it issues or takes up. -/
theorem readFrameReturnsTheDevicesAnswer : Obligations.ReadFrameReturnsTheDevicesAnswer := by
  intro s hs
  refine ⟨fun b rest hr hl => ⟨fun hp => ?_, fun hp => ?_⟩, fun rest hr => ⟨fun hp => ?_, fun hp => ?_⟩,
    fun hr => ⟨fun hp => ?_, fun hp => ?_⟩⟩
  · rw [exec_readFrame_answered hs (.inl hp) hr hl, readDone_idle hp]; rfl
  · rw [exec_readFrame_answered hs (.inr hp) hr hl, readDone_reading hp]; rfl
  · rw [exec_readFrame_answered hs (.inl hp) hr (Nat.zero_le _), readDone_idle hp]; rfl
  · rw [exec_readFrame_answered hs (.inr hp) hr (Nat.zero_le _), readDone_reading hp]; rfl
  · rw [exec_readFrame_blocked hs (.inl hp) hr, readWaiting_idle hp]
  · rw [exec_readFrame_blocked hs (.inr hp) hr, readWaiting_reading hp]

/-- The write out and answered leaves the port idle again (R162). -/
theorem answerWrite_startWrite {s : State} (hp : s.port = .idle) (b : List Byte) (a : WriteAnswer)
    (rest : List WriteAnswer) : answerWrite a rest (startWrite b s) =
      { s with wrAnswers := rest, trace := s.trace ++ [.writeIssued b, .writeAnswered a] } := by
  simp [answerWrite, startWrite, record, hp]

/-- Settles O24: the operation returns the answer to the write it issues or takes up. -/
theorem writeFrameHandsTheFrameOver : Obligations.WriteFrameHandsTheFrameOver := by
  intro b s hs
  refine ⟨fun a rest hw => ⟨fun hp => ?_, fun hp => ?_⟩, fun hw => ⟨fun hp => ?_, fun hp => ?_⟩⟩
  · rw [exec_writeFrame_answered hs (writeTransaction_idle hp) hw, answerWrite_startWrite hp]
    cases a <;> rfl
  · rw [exec_writeFrame_answered hs (writeTransaction_same hp) hw]
    cases a <;> rfl
  · exact exec_writeFrame_blocked hs (writeTransaction_idle hp) hw
  · exact exec_writeFrame_blocked hs (writeTransaction_same hp) hw

/-! ### The phases (R151 to R157) -/

/-- The state in which a failed read has halted the core (R151, R185). -/
def readFailed (rest : List ReadAnswer) (s : State) : State := halt (readDone .failure rest s)

section
variable {s : State} (hp : s.port = .idle ∨ s.port = .reading)
include hp

theorem phaseReadFrame_blocked (hr : s.rxAnswers = []) : phaseReadFrame s = .next (readWaiting s) := by
  simp only [phaseReadFrame, readTransaction_blocked hp hr]

theorem phaseReadFrame_frame {b : List Byte} {rest : List ReadAnswer} (hr : s.rxAnswers = .frame b :: rest)
    (hl : b.length ≤ Config.maxLen) : phaseReadFrame s = .next (frameRead b rest s) := by
  simp only [phaseReadFrame, readTransaction_answered hp hr hl, frameRead]

theorem phaseReadFrame_failure {rest : List ReadAnswer} (hr : s.rxAnswers = .failure :: rest) :
    phaseReadFrame s = .next (readFailed rest s) := by
  simp only [phaseReadFrame, readTransaction_answered hp hr (Nat.zero_le _), readFailed, readDone]

theorem phaseReadFrame_overlong {a : ReadAnswer} {rest : List ReadAnswer} (hr : s.rxAnswers = a :: rest)
    (hl : Config.maxLen < answerLength a) : phaseReadFrame s = .fault (.frameOverCapacity (answerLength a)) := by
  simp only [phaseReadFrame, readTransaction_overlong hp hr hl]

end

/-- A frame read is captured on the state its answer leaves (R151). -/
theorem frameRead_eq (b : List Byte) (rest : List ReadAnswer) (s : State) :
    frameRead b rest s = setPhase .decodeEthernet (captureFrame b (readDone (.frame b) rest s)) := rfl

/-! The fields of the states a read leads to (R151, R195). -/

section
variable (b : List Byte) (rest : List ReadAnswer) (s : State)

@[simp] theorem readWaiting_phase : (readWaiting s).phase = s.phase := rfl
@[simp] theorem readWaiting_port : (readWaiting s).port = .reading := rfl
@[simp] theorem readWaiting_trace : (readWaiting s).trace = s.trace ++ readIssue s.port := rfl
@[simp] theorem frameRead_phase : (frameRead b rest s).phase = .decodeEthernet := rfl
@[simp] theorem frameRead_localHA : (frameRead b rest s).localHA = s.localHA := rfl
@[simp] theorem frameRead_port : (frameRead b rest s).port = .idle := rfl
@[simp] theorem frameRead_trace :
    (frameRead b rest s).trace = s.trace ++ readIssue s.port ++ [.readAnswered (.frame b)] := rfl
@[simp] theorem readFailed_phase : (readFailed rest s).phase = .halted := rfl

/-- A read failure emits its outcome where the answer stands in the trace (R185). -/
@[simp] theorem readFailed_trace :
    (readFailed rest s).trace = s.trace ++ readIssue s.port ++ [.readAnswered .failure, .outcome .readFailed] := by
  simp [readFailed, readDone]

end

/-- Settles O33: the capture holds byte `x` of the frame at address `x`, and the read's answer decides the rest. -/
theorem readFramePhaseCapturesOrHalts : Obligations.ReadFramePhaseCapturesOrHalts := by
  intro s hph
  rw [phaseStep_readFrame hph]
  refine ⟨fun b rest hr hl => ⟨bufCapture b, bufCapture_wf b, bufByte_bufCapture b, fun hp => ?_, fun hp => ?_⟩,
    fun rest hr => ⟨fun hp => ?_, fun hp => ?_⟩, fun hr => ⟨fun hp => ?_, fun hp => ?_⟩⟩
  · rw [phaseReadFrame_frame (.inl hp) hr hl, frameRead_eq, readDone_idle hp]; rfl
  · rw [phaseReadFrame_frame (.inr hp) hr hl, frameRead_eq, readDone_reading hp]; rfl
  · rw [phaseReadFrame_failure (.inl hp) hr, readFailed, readDone_idle hp, halt, emit, record, List.append_assoc]
    rfl
  · rw [phaseReadFrame_failure (.inr hp) hr, readFailed, readDone_reading hp, halt, emit, record, List.append_assoc]
    rfl
  · rw [phaseReadFrame_blocked (.inl hp) hr, readWaiting_idle hp]
  · rw [phaseReadFrame_blocked (.inr hp) hr, readWaiting_reading hp]

/-- Settles O34: the phase decodes the frame in hand, and what decodes is the encoding of the frame it gives (O15). -/
theorem decodeEthernetPhaseWritesEthOrDrops : Obligations.DecodeEthernetPhaseWritesEthOrDrops := by
  intro s b hph hb
  have hstep : phaseStep s = decodeEthernetOn b s := by simp only [phaseStep_decodeEthernet hph, phaseDecodeEthernet, hb]
  rw [hstep]
  refine ⟨decodeEthernetOn_short s, fun hl => ?_⟩
  obtain ⟨f, hd, he⟩ := ethernetCodecRoundTrips.1 b hl
  exact ⟨f, he, decodeEthernetOn_ok s hd⟩

/-- Settles O35: both ends of the test, as one next state. -/
theorem classifyPhaseTestsEthertype : Obligations.ClassifyPhaseTestsEthertype := by
  intro s f hph hf
  rw [phaseStep_classify hph, phaseClassify_some hf, ← apply_ite]
  rfl

/-- Settles O36: each answer of `decodeArp` has its end, and it fails in two ways only (R130). -/
theorem decodeArpPhaseWritesArpOrDrops : Obligations.DecodeArpPhaseWritesArpOrDrops := by
  intro s f hph hf
  rw [phaseStep_decodeArp hph]
  exact ⟨fun m hd => phaseDecodeArp_ok hf hd, fun hd => phaseDecodeArp_raise hf hd, fun hd => phaseDecodeArp_raise hf hd,
    fun e hd => decodeArp_failure hd⟩

/-- Settles O37: with a valid message only `oper` decides whether `handle` answers (R140). -/
theorem respondPhaseWritesReplyOrDrops : Obligations.RespondPhaseWritesReplyOrDrops := by
  intro s m hph hm hv
  rw [phaseStep_respond hph]
  have hd := handle_eq m s.localHA s.localPA
  by_cases ho : m.oper = 1#16
  · rw [phaseRespond_ok hm (hd.trans (if_pos ⟨ho, hv⟩)), if_pos ho]
    rfl
  · rw [phaseRespond_raise hm (hd.trans (if_neg fun h => ho h.1)), if_neg ho]
    rfl

/-! ### Phase `EncodeAndWrite` (R156) -/

/-- The state in which the device has not answered the reply's write, `w` in `TXBUF` and on its way (R224). -/
def writeWaiting (w : List Byte) (s : State) : State := startWrite w (loadTx w s)

@[simp] theorem writeWaiting_phase (w : List Byte) (s : State) : (writeWaiting w s).phase = s.phase := rfl
@[simp] theorem writeWaiting_port (w : List Byte) (s : State) : (writeWaiting w s).port = .writing w := rfl
@[simp] theorem writeWaiting_txbuf (w : List Byte) (s : State) : (writeWaiting w s).txbuf = bufCapture w := rfl
@[simp] theorem writeWaiting_trace (w : List Byte) (s : State) :
    (writeWaiting w s).trace = s.trace ++ [.writeIssued w] := rfl

@[simp] theorem answered_phase (w : List Byte) (a : WriteAnswer) (rest : List WriteAnswer) (s : State) :
    (answered w a rest s).phase = .readFrame := rfl
@[simp] theorem answered_trace (w : List Byte) (a : WriteAnswer) (rest : List WriteAnswer) (s : State) :
    (answered w a rest s).trace = s.trace ++ [.writeIssued w, .writeAnswered a, .outcome (writeOutcome a)] := rfl

/-- The end of a cycle whose write, in flight till now, is answered (R156). -/
theorem endCycle_answerWrite (a : WriteAnswer) (rest : List WriteAnswer) (s : State) :
    endCycle (writeOutcome a) (answerWrite a rest s) = { dropped (writeOutcome a) s with
      port := .idle, wrAnswers := rest, trace := s.trace ++ [.writeAnswered a, .outcome (writeOutcome a)] } := by
  have htrace : s.trace ++ [.writeAnswered a, .outcome (writeOutcome a)] =
      s.trace ++ [.writeAnswered a] ++ [.outcome (writeOutcome a)] := by simp
  rw [htrace]
  rfl

/-- In a state that meets the invariant the reply in flight is what `TXBUF` holds already (R26, R156). -/
theorem loadTx_eq_self {s : State} {w : List Byte} (h : Inv s) (hph : s.phase = .encodeAndWrite)
    (hp : s.port = .writing w) : loadTx w s = s := by
  obtain ⟨-, -, hi⟩ := h
  obtain ⟨-, -, -, ⟨hidle, -⟩ | ⟨b, hb, htx, hload, -⟩⟩ := (phaseInv_encodeAndWrite hph).1 hi
  · rw [hp] at hidle; cases hidle
  obtain rfl : w = b := Port.writing.inj (hp.symm.trans hb)
  obtain ⟨haddr, hlen⟩ : s.txbuf.map Prod.fst = List.range Config.txFrameLen ∧ s.txlen = some Config.txFrameLen := by
    simpa [txLoaded, holdsExactly] using htx
  rw [loadTx, ← eq_bufCapture haddr hload, ← hlen]

section
variable {s : State} {m r : ArpMessage} {w : List Byte} (hm : s.arp = some m) (hr : s.rpl = some r)
  (hw : w = encodeEthernet (wrapReply m r s.localHA))
include hm hr hw

/-- The reply is issued and answered in one step of the phase (R156). -/
theorem phaseEncodeAndWrite_idle_answered (hp : s.port = .idle) {a : WriteAnswer} {rest : List WriteAnswer}
    (ha : s.wrAnswers = a :: rest) : phaseEncodeAndWrite s = .next (answered w a rest s) := by
  rw [phaseEncodeAndWrite_idle hp hm hr, ← hw, finishWrite_cons (s := startWrite w (loadTx w s)) ha,
    ← endCycle_eq_answered hp]
  rfl

/-- The reply is issued, and not answered yet (R224). -/
theorem phaseEncodeAndWrite_idle_blocked (hp : s.port = .idle) (ha : s.wrAnswers = []) :
    phaseEncodeAndWrite s = .next (writeWaiting w s) := by
  rw [phaseEncodeAndWrite_idle hp hm hr, ← hw, finishWrite_nil (s := startWrite w (loadTx w s)) ha, writeWaiting]

/-- The reply in flight is answered; the cycle's end forgets that `TXBUF` was loaded again (R156). -/
theorem phaseEncodeAndWrite_writing_answered (hp : s.port = .writing w) {a : WriteAnswer} {rest : List WriteAnswer}
    (ha : s.wrAnswers = a :: rest) :
    phaseEncodeAndWrite s = .next (endCycle (writeOutcome a) (answerWrite a rest s)) := by
  rw [phaseEncodeAndWrite_writing hm hr (hw ▸ hp), ← hw, finishWrite_cons (s := loadTx w s) ha]
  rfl

/-- The reply in flight is waited for (R224). -/
theorem phaseEncodeAndWrite_writing_blocked (hp : s.port = .writing w) (ha : s.wrAnswers = []) :
    phaseEncodeAndWrite s = .next (loadTx w s) := by
  rw [phaseEncodeAndWrite_writing hm hr (hw ▸ hp), ← hw, finishWrite_nil (s := loadTx w s) ha]

/-- Once the core waits for the answer to the reply, a further phase changes nothing (R224). -/
theorem phaseStep_writeWaiting (hph : s.phase = .encodeAndWrite) (ha : s.wrAnswers = []) :
    phaseStep (writeWaiting w s) = .next (writeWaiting w s) := by
  rw [phaseStep_encodeAndWrite (s := writeWaiting w s) hph,
    phaseEncodeAndWrite_writing_blocked (s := writeWaiting w s) hm hr hw rfl ha, writeWaiting, loadTx_again]

end

/-- Settles O38, by the state of the port and the answer to the write. -/
theorem encodeAndWritePhaseWritesOnce : Obligations.EncodeAndWritePhaseWritesOnce := by
  intro s m r w hph hm hr hw
  have hwait (ha : s.wrAnswers = []) := phaseStep_writeWaiting hm hr hw hph ha
  rw [phaseStep_encodeAndWrite hph]
  refine ⟨fun a rest ha => ⟨fun hp => ?_, fun hp => ?_⟩, fun ha => ⟨bufCapture w, bufCapture_wf w, bufByte_bufCapture w,
    fun hp => ⟨writeWaiting w s, rfl, phaseEncodeAndWrite_idle_blocked hm hr hw hp ha, hwait ha⟩, fun hp => ?_⟩,
    fun hp => ?_⟩
  · rw [phaseEncodeAndWrite_idle_answered hm hr hw hp ha]
    cases a <;> rfl
  · rw [phaseEncodeAndWrite_writing_answered hm hr hw hp ha, endCycle_answerWrite]
    cases a <;> rfl
  · rw [phaseEncodeAndWrite_writing_blocked hm hr hw hp ha]
    exact ⟨rfl, fun h => congrArg _ (loadTx_eq_self h hph hp)⟩
  · subst hw
    rcases hp with hp | ⟨b, hp, hb⟩
    · exact phaseEncodeAndWrite_busy hm hr (by simp [hp]) (by simp [hp])
    · exact phaseEncodeAndWrite_busy hm hr (by simp [hp]) (by simp [hp, hb])

/-! ### Phase `Halted` (R157) -/

/-- In `Halted` an instruction changes nothing: a frame class by R157, an operation by R190. -/
theorem exec_halted {s : State} (h : s.phase = .halted) (i : Instr) : exec i s = .next s := by
  by_cases hc : classOf i = none
  case neg => exact exec_frameClass_halted h (Option.isSome_iff_ne_none.2 hc)
  by_cases hr : ∃ n, i = .readFrame n
  · obtain ⟨n, rfl⟩ := hr; rw [exec, execReadFrame, unlessHalted_halted h]
  by_cases hw : ∃ b, i = .writeFrame b
  · obtain ⟨b, rfl⟩ := hw; rw [exec, execWriteFrame, unlessHalted_halted h]
  obtain ⟨r, hi⟩ := exec_eq_returnValue hc (fun n e => hr ⟨n, e⟩) (fun b e => hw ⟨b, e⟩)
  exact (hi s).trans (returnValue_halted h)

/-- Past the fetch a step is one phase (R150). -/
theorem step_eq_phaseStep {s : State} (hr : s.phase ≠ .readFrame) (hd : s.phase ≠ .decodeEthernet) :
    step s = phaseStep s := by
  cases h : s.phase with
  | readFrame => exact absurd h hr
  | decodeEthernet => exact absurd h hd
  | classify | decodeArp | respond | encodeAndWrite | halted => simp only [step, h]

/-- Settles O39: the step is the phase's, which in `Halted` does nothing, and every meaning asks first whether the core
is halted. -/
theorem haltedChangesNothing : Obligations.HaltedChangesNothing := by
  intro s h
  have hstep : step s = phaseStep s := step_eq_phaseStep (by simp [h]) (by simp [h])
  exact ⟨hstep.trans (phaseStep_halted h), phaseStep_halted h, exec_halted h, fun _ _ _ _ => rfl⟩

end Sys2Proof.Machine
end

section
/-! PROOFS. What becomes of a frame (30_encoding.md R84): where the phases drop it or answer it (R152 to R156), told of
its instruction, of `cycle` (R158) and of the phases one after another (R150). -/

namespace Sys2Proof.Machine

/-! ### Dropped or answered (R84) -/

/-- The class of the instruction is one that is dropped, with this outcome (R84, R181). -/
def IsDropped (i : Instr) (c : OutcomeCode) : Prop := ∃ k, classOf i = some k ∧ dropCode k = some c

/-- The frame `b` is dropped with `c`, in `DecodeEthernet`, `Classify`, `DecodeArp` or `Respond` (R152 to R155). -/
inductive DropsWith : List Byte → OutcomeCode → Prop
  | inDecodeEthernet {b : List Byte} (h : b.length < 14) : DropsWith b .dropEthTooShort
  | inClassify (dst src : HA) {etype : U16} (p : List Byte) (h : etype ≠ Config.ethertypeArp) :
      DropsWith (frameBytes dst src etype p) .dropEthertype
  | inDecodeArp (dst src : HA) {p : List Byte} {e : Failure} (h : decodeArp p = .raise e) :
      DropsWith (frameBytes dst src Config.ethertypeArp p) (arpDropOutcome e)
  | inRespond (dst src : HA) {p : List Byte} {m : ArpMessage} (h : decodeArp p = .ok m)
      (hr : ∀ la lp, handle m la lp = .raise .noReply) :
      DropsWith (frameBytes dst src Config.ethertypeArp p) .dropNoReply

/-- An instruction with an encoding is of a class that is dropped, or a request (R84). -/
theorem dropped_or_request {i : Instr} {b : List Byte} (he : encode i = some b) :
    (∃ c, IsDropped i c) ∨ ∃ dst src sha spa tha tpa tail, i = .arpRequest dst src sha spa tha tpa tail := by
  cases i with
  | arpRequest => exact .inr ⟨_, _, _, _, _, _, _, rfl⟩
  | frameRunt | frameOther | arpShortHdr | arpUnsupported | arpShortBody | arpReply | arpOtherOp =>
    exact .inl ⟨_, _, rfl, rfl⟩
  | _ => cases he

/-- A request is not dropped (R84). -/
theorem IsDropped.classOf_ne {i : Instr} {c : OutcomeCode} (h : IsDropped i c) : classOf i ≠ some .arpRequest := by
  obtain ⟨k, hk, hc⟩ := h
  intro hreq
  cases hk.symm.trans hreq
  cases hc

/-- Classes 7 and 8: what asks for no reply (R140). -/
theorem dropsWith_noReply (dst src : HA) {oper : U16} (sha : HA) (spa : PA) (tha : HA) (tpa : PA) (tail : List Byte)
    (ho : oper ≠ Config.opRequest) : DropsWith (arpFrameBytes dst src oper sha spa tha tpa tail) .dropNoReply :=
  .inRespond dst src (decodeArp_arpBytes oper sha spa tha tpa tail)
    fun _ _ => (handle_supportedMessage ..).trans (if_neg ho)

/-- The frame of an instruction that is dropped is dropped in the phase of its class (R84, R183). -/
theorem IsDropped.dropsWith {i : Instr} {b : List Byte} {c : OutcomeCode} (h : IsDropped i c)
    (hw : wellFormed i = true) (he : encode i = some b) : DropsWith b c := by
  obtain ⟨k, hk, hc⟩ := h
  cases i <;> cases hk <;> cases hc <;> cases he
  case frameRunt => exact .inDecodeEthernet (of_decide_eq_true hw)
  case arpReply => exact dropsWith_noReply _ _ _ _ _ _ _ (by decide)
  case arpOtherOp =>
    simp only [wellFormed, Bool.and_eq_true, decide_eq_true_eq] at hw
    exact dropsWith_noReply _ _ _ _ _ _ _ hw.1.1
  case arpShortBody => exact .inDecodeArp _ _ (decodeArp_arpFixedBytes_short (of_decide_eq_true hw))
  case arpUnsupported =>
    simp only [wellFormed, Bool.and_eq_true, decide_eq_true_eq] at hw
    exact .inDecodeArp _ _ (decodeArp_unsupported hw.1.1 hw.1.2)
  case arpShortHdr => exact .inDecodeArp _ _ (decodeArp_short (of_decide_eq_true hw))
  case frameOther => exact .inClassify _ _ _ (of_decide_eq_true (Bool.and_eq_true_iff.1 hw).1)

/-- A well-formed instruction that is dropped ends the cycle with its outcome (R183). -/
theorem IsDropped.exec_eq {i : Instr} {c : OutcomeCode} (hd : IsDropped i c) (hw : wellFormed i = true) {s : State}
    (h : s.phase ≠ .halted) (hp : s.port = .idle) : exec i s = .next (endCycle c s) := by
  obtain ⟨k, hk, hc⟩ := hd
  cases i <;> cases hk <;> cases hc
  case frameRunt => exact exec_frameRunt h hp (of_decide_eq_true hw)
  case arpReply => exact exec_arpReply h hp ..
  case arpOtherOp =>
    simp only [wellFormed, Bool.and_eq_true, decide_eq_true_eq] at hw
    exact exec_arpOtherOp h hp _ _ _ _ _ _ _ hw.1.1
  case arpShortBody => exact exec_arpShortBody h hp _ _ _ (of_decide_eq_true hw)
  case arpUnsupported =>
    simp only [wellFormed, Bool.and_eq_true, decide_eq_true_eq] at hw
    exact exec_arpUnsupported h hp _ _ hw.1.1 hw.1.2
  case arpShortHdr => exact exec_arpShortHdr h hp _ _ (of_decide_eq_true hw)
  case frameOther => exact exec_frameOther h hp _ _ (of_decide_eq_true (Bool.and_eq_true_iff.1 hw).1) _

/-! ### `cycle` (R158) -/

section
variable (la : HA) (lp : PA) (wr : WriteAnswer)

/-- `cycle` on an ARP frame goes by the answer of `decodeArp`, and then of `handle` (R158). -/
theorem cycle_arp_raise (dst src : HA) {p : List Byte} {e : Failure} (h : decodeArp p = .raise e) :
    cycle la lp (.frame (frameBytes dst src Config.ethertypeArp p)) wr = ⟨none, arpDropOutcome e, false⟩ := by
  rcases decodeArp_failure h with rfl | rfl <;> simp [cycle, decodeEthernet_frameBytes, h, arpDropOutcome]

theorem cycle_arp_noReply (dst src : HA) {p : List Byte} {m : ArpMessage} {e : Failure} (h : decodeArp p = .ok m)
    (hh : handle m la lp = .raise e) :
    cycle la lp (.frame (frameBytes dst src Config.ethertypeArp p)) wr = ⟨none, .dropNoReply, false⟩ := by
  simp [cycle, decodeEthernet_frameBytes, h, hh]

theorem cycle_arp_reply (dst src : HA) {p : List Byte} {m r : ArpMessage} (h : decodeArp p = .ok m)
    (hh : handle m la lp = .ok r) :
    cycle la lp (.frame (frameBytes dst src Config.ethertypeArp p)) wr =
      ⟨some (encodeEthernet (wrapReply m r la)), writeOutcome wr, false⟩ := by
  simp [cycle, decodeEthernet_frameBytes, h, hh]

/-- `cycle` drops what the phases drop (R158). -/
theorem DropsWith.cycle_eq {b : List Byte} {c : OutcomeCode} (h : DropsWith b c) :
    cycle la lp (.frame b) wr = ⟨none, c, false⟩ := by
  cases h with
  | inDecodeEthernet h => simp only [cycle, decodeEthernet_short h]
  | inClassify dst src p h => simp only [cycle, decodeEthernet_frameBytes, if_pos h]
  | inDecodeArp dst src h => exact cycle_arp_raise la lp wr dst src h
  | inRespond dst src h hr => exact cycle_arp_noReply la lp wr dst src h (hr la lp)

/-- `cycle` answers a request with the 42 bytes of R82's last column (R158). -/
theorem cycle_request (dst src sha : HA) (spa : PA) (tha : HA) (tpa : PA) (tail : List Byte) :
    cycle la lp (.frame (arpFrameBytes dst src Config.opRequest sha spa tha tpa tail)) wr =
      ⟨some (replyWire la sha spa tpa), writeOutcome wr, false⟩ := by
  have hh := (handle_supportedMessage Config.opRequest sha spa tha tpa la lp).trans (if_pos rfl)
  have hm := decodeArp_arpBytes Config.opRequest sha spa tha tpa tail
  rw [arpFrameBytes, cycle_arp_reply la lp wr dst src hm hh, encodeEthernet_wrapReply_replyTo]

end

/-- Settles O32: the operation returns `cycle`'s three outputs, and `cycle` drops or answers by the frame's class. -/
theorem cycleOutputsByFrameClass : Obligations.CycleOutputsByFrameClass := by
  intro la lp wr s hs
  have hrun (rx : ReadAnswer) : exec (.cycle la lp rx wr) s = .next (setRet (.ok (.cycleResult (cycle la lp rx wr))) s) :=
    returnValue_run hs
  refine ⟨hrun .failure, fun i b k c hw he hk hc => ?_, fun dst src sha spa tha tpa tail b he => ?_⟩
  · have hd : IsDropped i c := ⟨k, hk, hc⟩
    rw [hrun, (hd.dropsWith hw he).cycle_eq]
    rfl
  · cases he
    rw [hrun, cycle_request]
    cases wr <;> rfl

end Sys2Proof.Machine
end

section
/-! PROOFS. The step (44_frame_dispatcher.md R158): it runs the instruction of the frame read, it is the phases one after
another, and with the device's answers standing it is `cycle`. -/

namespace Sys2Proof.Machine

/-! ### The step runs the frame's instruction -/

/-- With a frame in hand the step runs its instruction (D1, R158). -/
theorem step_decodeEthernet {s : State} (hph : s.phase = .decodeEthernet) : step s = runHeld exec s := by
  simp only [step, hph]

/-- Settles O42: the instruction of the frame just read, or of the frame in hand. -/
theorem stepRunsTheDecodedInstruction : Obligations.StepRunsTheDecodedInstruction := by
  refine ⟨fun s b rest i hph hp hr hd => step_frame_answered hph hp hr hd, fun s b i hph hb hd => ?_⟩
  rw [step_decodeEthernet hph, runHeld_of_heldFrame exec hb ((fitsBuffer_iff _).2 (length_of_decode hd)),
    Decoded.instr.inj ((decode_fits (length_of_decode hd)).symm.trans hd)]

section
variable (dst src sha : HA) (spa : PA) (tha : HA) (tpa : PA) (tail : List Byte) (s : State)

/-- The state in which the reply to a request is about to be written (R156). -/
def requestReady : State :=
  replyReady ⟨dst, src, Config.ethertypeArp, arpBytes Config.opRequest sha spa tha tpa ++ tail⟩
    (supportedMessage Config.opRequest sha spa tha tpa)
    (replyTo (supportedMessage Config.opRequest sha spa tha tpa) s.localHA) s

/-- The state in which the device has not answered the reply to a request (R224). -/
def requestWaiting : State :=
  writeWaiting (replyWire s.localHA sha spa tpa) (requestReady dst src sha spa tha tpa tail s)

@[simp] theorem requestWaiting_phase : (requestWaiting dst src sha spa tha tpa tail s).phase = .encodeAndWrite := rfl
@[simp] theorem requestWaiting_port :
    (requestWaiting dst src sha spa tha tpa tail s).port = .writing (replyWire s.localHA sha spa tpa) := rfl
@[simp] theorem requestWaiting_trace : (requestWaiting dst src sha spa tha tpa tail s).trace =
    s.trace ++ [.writeIssued (replyWire s.localHA sha spa tpa)] := rfl

variable {s}

/-- Class 6 without an answer to the write: the reply is out, and the core waits (R224). -/
theorem exec_arpRequest_blocked (h : s.phase ≠ .halted) (hp : s.port = .idle) (hw : s.wrAnswers = []) :
    exec (.arpRequest dst src sha spa tha tpa tail) s = .next (requestWaiting dst src sha spa tha tpa tail s) := by
  rw [exec_arpRequest h hp]
  exact phaseEncodeAndWrite_idle_blocked rfl rfl (encodeEthernet_wrapReply_replyTo sha spa tha tpa s.localHA).symm hp hw

/-- The wait ends with the device's answer only (R224). -/
theorem step_requestWaiting (hw : s.wrAnswers = []) :
    step (requestWaiting dst src sha spa tha tpa tail s) = .next (requestWaiting dst src sha spa tha tpa tail s) := by
  rw [step_eq_phaseStep (by simp) (by simp)]
  exact phaseStep_writeWaiting rfl rfl (encodeEthernet_wrapReply_replyTo sha spa tha tpa s.localHA).symm rfl hw

end

/-- Settles O30: what is loaded holds byte `x` of the reply at address `x`. -/
theorem unansweredWriteBlocks : Obligations.UnansweredWriteBlocks := by
  intro dst src sha spa tha tpa tail s h hp hw
  exact ⟨requestWaiting dst src sha spa tha tpa tail s, exec_arpRequest_blocked dst src sha spa tha tpa tail h hp hw, rfl,
    rfl, rfl, fun x => by rw [requestWaiting, writeWaiting_txbuf, bufByte_bufCapture], rfl, rfl, rfl, rfl, rfl, rfl, rfl,
    rfl, step_requestWaiting dst src sha spa tha tpa tail hw⟩

/-! ### The step is the phases one after another (R150, R158) -/

/-- `ETH` is written, and its ethertype is to be tested (R152). -/
def classifying (f : EthernetFrame) (s : State) : State := setPhase .classify (setEth f s)

/-- `ETH` is written, and its payload is to be decoded (R153). -/
def decoding (f : EthernetFrame) (s : State) : State := setPhase .decodeArp (setEth f s)

/-- `ARP` is written, and is to be answered (R154). -/
def responding (f : EthernetFrame) (m : ArpMessage) (s : State) : State := setPhase .respond (setArp m (setEth f s))

section
variable {s : State} {b : List Byte} {f : EthernetFrame} {m r : ArpMessage} {e : Failure}

theorem phaseStep_heldFrame (hph : s.phase = .decodeEthernet) (hb : heldFrame s = .ok b) :
    phaseStep s = decodeEthernetOn b s := by
  simp only [phaseStep_decodeEthernet hph, phaseDecodeEthernet, hb]

theorem phaseStep_classifying_other (h : f.etype ≠ Config.ethertypeArp) :
    phaseStep (classifying f s) = .next (endCycle .dropEthertype s) :=
  (phaseClassify_some (s := classifying f s) rfl).trans (if_neg h)

theorem phaseStep_classifying_arp (h : f.etype = Config.ethertypeArp) :
    phaseStep (classifying f s) = .next (decoding f s) :=
  (phaseClassify_some (s := classifying f s) rfl).trans (if_pos h)

theorem phaseStep_decoding_raise (h : decodeArp f.payload = .raise e) :
    phaseStep (decoding f s) = .next (endCycle (arpDropOutcome e) s) :=
  phaseDecodeArp_raise (s := decoding f s) rfl h

theorem phaseStep_decoding_ok (h : decodeArp f.payload = .ok m) :
    phaseStep (decoding f s) = .next (responding f m s) :=
  phaseDecodeArp_ok (s := decoding f s) rfl h

theorem phaseStep_responding_raise (h : handle m s.localHA s.localPA = .raise e) :
    phaseStep (responding f m s) = .next (endCycle .dropNoReply s) :=
  phaseRespond_raise (s := responding f m s) rfl h

theorem phaseStep_responding_ok (h : handle m s.localHA s.localPA = .ok r) :
    phaseStep (responding f m s) = .next (replyReady f m r s) :=
  phaseRespond_ok (s := responding f m s) rfl h

/-- Whatever the last phase answers, the phases pause there: the cycle has ended, or the write is in flight. -/
theorem runPhases_replyReady (k : Nat) (hp : s.port = .idle) :
    runPhases (k + 1) (replyReady f m r s) = phaseEncodeAndWrite (replyReady f m r s) := by
  have hstep : phaseStep (replyReady f m r s) = phaseEncodeAndWrite (replyReady f m r s) := rfl
  cases hw : s.wrAnswers with
  | nil =>
    have ho := phaseEncodeAndWrite_idle_blocked (s := replyReady f m r s) rfl rfl rfl hp hw
    rw [runPhases_stop (hstep.trans ho) (by simp [atPause]), ho]
  | cons a rest =>
    have ho := phaseEncodeAndWrite_idle_answered (s := replyReady f m r s) rfl rfl rfl hp hw
    rw [runPhases_stop (hstep.trans ho) rfl, ho]

variable (hph : s.phase = .decodeEthernet) (hp : s.port = .idle)
include hph hp

/-- A frame with a header is in `Classify` one phase on (R152). -/
theorem runPhases_frameBytes (k : Nat) {dst src : HA} {etype : U16} {p : List Byte}
    (hb : heldFrame s = .ok (frameBytes dst src etype p)) :
    runPhases (k + 1) s = runPhases k (classifying ⟨dst, src, etype, p⟩ s) := by
  refine runPhases_go ((phaseStep_heldFrame hph hb).trans (decodeEthernetOn_ok s (decodeEthernet_frameBytes ..))) ?_
  simp [atPause, classifying, hp]

/-- An ARP frame is in `DecodeArp` two phases on (R153). -/
theorem runPhases_arp (k : Nat) {dst src : HA} {p : List Byte}
    (hb : heldFrame s = .ok (frameBytes dst src Config.ethertypeArp p)) :
    runPhases (k + 2) s = runPhases k (decoding ⟨dst, src, Config.ethertypeArp, p⟩ s) := by
  rw [runPhases_frameBytes hph hp (k + 1) hb]
  exact runPhases_go (phaseStep_classifying_arp rfl) (by simp [atPause, decoding, hp])

/-- A supported message is in `Respond` three phases on (R154). -/
theorem runPhases_message (k : Nat) {dst src : HA} {p : List Byte}
    (hb : heldFrame s = .ok (frameBytes dst src Config.ethertypeArp p)) (hm : decodeArp p = .ok m) :
    runPhases (k + 3) s = runPhases k (responding ⟨dst, src, Config.ethertypeArp, p⟩ m s) := by
  rw [runPhases_arp hph hp (k + 1) hb]
  exact runPhases_go (phaseStep_decoding_ok hm) (by simp [atPause, responding, hp])

/-- A frame that is dropped ends its cycle within four phases of the read (R152 to R155). -/
theorem DropsWith.runPhases_eq {c : OutcomeCode} (h : DropsWith b c) (hb : heldFrame s = .ok b) (k : Nat) :
    runPhases (k + 4) s = .next (endCycle c s) := by
  cases h with
  | inDecodeEthernet h =>
    exact runPhases_stop ((phaseStep_heldFrame hph hb).trans (decodeEthernetOn_short s h)) rfl
  | inClassify dst src p h =>
    rw [runPhases_frameBytes hph hp (k + 3) hb]
    exact runPhases_stop (phaseStep_classifying_other h) rfl
  | inDecodeArp dst src h =>
    rw [runPhases_arp hph hp (k + 2) hb]
    exact runPhases_stop (phaseStep_decoding_raise h) rfl
  | inRespond dst src h hr =>
    rw [runPhases_message hph hp (k + 1) hb h]
    exact runPhases_stop (phaseStep_responding_raise (hr s.localHA s.localPA)) rfl

/-- A request passes every phase (R155, R156). -/
theorem runPhases_request {dst src sha : HA} {spa : PA} {tha : HA} {tpa : PA} {tail : List Byte}
    (hb : heldFrame s = .ok (arpFrameBytes dst src Config.opRequest sha spa tha tpa tail)) (k : Nat) :
    runPhases (k + 5) s = phaseEncodeAndWrite (requestReady dst src sha spa tha tpa tail s) := by
  have hh := (handle_supportedMessage Config.opRequest sha spa tha tpa s.localHA s.localPA).trans (if_pos rfl)
  rw [runPhases_message hph hp (k + 2) hb (decodeArp_arpBytes Config.opRequest sha spa tha tpa tail),
    runPhases_go (phaseStep_responding_ok hh) (by simp [atPause, replyReady, hp]), runPhases_replyReady k hp,
    requestReady]

/-- With a frame in hand its instruction is the phases that are left (R84, R150). -/
theorem runHeld_eq_runPhases (hb : heldFrame s = .ok b) (hl : b.length ≤ Config.maxLen) (k : Nat) :
    runHeld exec s = runPhases (k + 5) s := by
  obtain ⟨i, hw, he⟩ := exists_encode hl
  have hh : s.phase ≠ .halted := by simp [hph]
  rw [runHeld_of_heldFrame exec hb ((fitsBuffer_iff _).2 hl), decodeFrame_encode hw he]
  rcases dropped_or_request he with ⟨c, hd⟩ | ⟨dst, src, sha, spa, tha, tpa, tail, rfl⟩
  · rw [hd.exec_eq hw hh hp, (hd.dropsWith hw he).runPhases_eq hph hp hb (k + 1)]
  · cases he
    rw [exec_arpRequest hh hp, runPhases_request hph hp hb k, requestReady]

end

/-- Everything phase `ReadFrame` can answer where no write is in flight (R151, R161). -/
theorem phaseReadFrame_cases {s : State} (hp : s.port = .idle ∨ s.port = .reading) :
    (s.rxAnswers = [] ∧ phaseReadFrame s = .next (readWaiting s)) ∨
    (∃ b rest, s.rxAnswers = .frame b :: rest ∧ b.length ≤ Config.maxLen ∧
      phaseReadFrame s = .next (frameRead b rest s)) ∨
    (∃ rest, s.rxAnswers = .failure :: rest ∧ phaseReadFrame s = .next (readFailed rest s)) ∨
    (∃ a rest, s.rxAnswers = a :: rest ∧ Config.maxLen < answerLength a ∧
      phaseReadFrame s = .fault (.frameOverCapacity (answerLength a))) := by
  rcases hr : s.rxAnswers with _ | ⟨a, rest⟩
  · exact .inl ⟨rfl, phaseReadFrame_blocked hp hr⟩
  by_cases hl : answerLength a ≤ Config.maxLen
  case neg =>
    exact .inr (.inr (.inr ⟨a, rest, rfl, Nat.lt_of_not_le hl, phaseReadFrame_overlong hp hr (Nat.lt_of_not_le hl)⟩))
  cases a with
  | frame b => exact .inr (.inl ⟨b, rest, rfl, hl, phaseReadFrame_frame hp hr hl⟩)
  | failure => exact .inr (.inr (.inl ⟨rest, rfl, phaseReadFrame_failure hp hr⟩))

/-- From `ReadFrame` the step is the read, and with a frame its instruction (R158). -/
theorem step_readFrame {s : State} (hph : s.phase = .readFrame) : step s = andThen (phaseReadFrame s) afterRead := by
  simp only [step, hph]

/-- Settles O44: the read ends the step, or brings a frame in hand, whose instruction is the phases that are left. -/
theorem stepIsTheCompositionOfPhases : Obligations.StepIsTheCompositionOfPhases := by
  rintro s ⟨-, -, hi⟩
  refine ⟨?_, step_eq_phaseStep⟩
  rintro (hph | hph)
  · obtain ⟨-, hp⟩ := (phaseInv_readFrame hph).1 hi
    have hstep := phaseStep_readFrame hph
    rw [step_readFrame hph]
    rcases phaseReadFrame_cases hp with ⟨-, h⟩ | ⟨b, rest, -, hl, h⟩ | ⟨rest, -, h⟩ | ⟨a, rest, -, -, h⟩
    · rw [runPhases_stop (hstep.trans h) (by simp [atPause]), h, andThen_next]
      simp only [afterRead, readWaiting_phase, hph]
    · rw [runPhases_go (hstep.trans h) rfl, h, andThen_next]
      exact runHeld_eq_runPhases rfl rfl (heldFrame_frameRead b rest s) hl 0
    · rw [runPhases_stop (hstep.trans h) rfl, h]
      rfl
    · rw [runPhases, hstep, h]
      rfl
  · obtain ⟨hf, -, -, -, -, hp⟩ := (phaseInv_decodeEthernet hph).1 hi
    obtain ⟨b, hb, -, hfit⟩ := heldFrame_of_frameInHand hf
    rw [step_decodeEthernet hph]
    exact runHeld_eq_runPhases hph hp hb ((fitsBuffer_iff _).1 hfit) 1

end Sys2Proof.Machine
end

section
/-! PROOFS. The step from `ReadFrame` as a cycle (44_frame_dispatcher.md R158, R159, R165): what it answers, by the
device's answers. -/

namespace Sys2Proof.Machine

/-! ### What the step answers, by the device's answers (R158) -/

section
variable {s : State} (hph : s.phase = .readFrame) (hp : s.port = .idle ∨ s.port = .reading)
include hph hp

/-- Without an answer to the read the core waits (R195). -/
theorem step_read_blocked (hr : s.rxAnswers = []) : step s = .next (readWaiting s) := by
  rw [step_readFrame hph, phaseReadFrame_blocked hp hr, andThen_next]
  simp only [afterRead, readWaiting_phase, hph]

/-- A read failure halts the core (R185). -/
theorem step_read_failure {rest : List ReadAnswer} (hr : s.rxAnswers = .failure :: rest) :
    step s = .next (readFailed rest s) := by
  rw [step_readFrame hph, phaseReadFrame_failure hp hr]
  rfl

variable {b : List Byte} {rest : List ReadAnswer} (hr : s.rxAnswers = .frame b :: rest)
include hr

/-- The frame of a well-formed instruction is read and its instruction run (R158). -/
theorem step_encode {i : Instr} (hw : wellFormed i = true) (he : encode i = some b) :
    step s = exec i (frameRead b rest s) :=
  step_frame_answered hph hp hr (decodeOfEncodedInstruction i b hw he)

/-- A frame that is dropped ends the cycle (R183). -/
theorem step_dropped {i : Instr} {c : OutcomeCode} (hd : IsDropped i c) (hw : wellFormed i = true)
    (he : encode i = some b) : step s = .next (endCycle c (frameRead b rest s)) :=
  (step_encode hph hp hr hw he).trans (hd.exec_eq hw (by simp) rfl)

variable {dst src sha : HA} {spa : PA} {tha : HA} {tpa : PA} {tail : List Byte}
  (hw : wellFormed (.arpRequest dst src sha spa tha tpa tail) = true)
  (he : encode (.arpRequest dst src sha spa tha tpa tail) = some b)
include hw he

/-- A request is answered, and the device's answer to the write ends the cycle (R156). -/
theorem step_request_answered {a : WriteAnswer} {wrest : List WriteAnswer} (ha : s.wrAnswers = a :: wrest) :
    step s = .next (answered (replyWire s.localHA sha spa tpa) a wrest (frameRead b rest s)) :=
  (step_encode hph hp hr hw he).trans (exec_arpRequest_answered (s := frameRead b rest s) (by simp) rfl ha ..)

/-- Without that answer the core waits (R224). -/
theorem step_request_blocked (ha : s.wrAnswers = []) :
    step s = .next (requestWaiting dst src sha spa tha tpa tail (frameRead b rest s)) :=
  (step_encode hph hp hr hw he).trans
    (exec_arpRequest_blocked dst src sha spa tha tpa tail (s := frameRead b rest s) (by simp) rfl ha)

end

/-! ### The step is `cycle` (R158, R165) -/

/-- The state in which a step from `ReadFrame` ends when it writes nothing, or its write is answered: what `cycle` gives
as result `r`, with the port events of that cycle (R158, R159). -/
def cycleEnd (rx : ReadAnswer) (rest : List ReadAnswer) (wr : WriteAnswer) (wrest : List WriteAnswer) (r : CycleResult)
    (s : State) : State :=
  { s with
    phase := if r.halt then .halted else .readFrame, port := .idle,
    rxbuf := [], rxlen := none, eth := none, arp := none, rpl := none, txbuf := [], txlen := none,
    rxAnswers := rest, wrAnswers := wrest, trace := s.trace ++ cycleEvents s.port rx wr r }

/-- The end of a cycle that writes nothing (R183). -/
theorem endCycle_frameRead (b : List Byte) (rest : List ReadAnswer) (wr : WriteAnswer) (c : OutcomeCode) (s : State) :
    endCycle c (frameRead b rest s) = cycleEnd (.frame b) rest wr s.wrAnswers ⟨none, c, false⟩ s := by
  have htrace : s.trace ++ cycleEvents s.port (.frame b) wr ⟨none, c, false⟩ =
      s.trace ++ readIssue s.port ++ [.readAnswered (.frame b)] ++ [.outcome c] := by simp [cycleEvents]
  rw [cycleEnd, htrace]
  rfl

/-- The end of a cycle whose write is answered (R156). -/
theorem answered_frameRead (b : List Byte) (rest : List ReadAnswer) (t : List Byte) (wr : WriteAnswer)
    (wrest : List WriteAnswer) (s : State) : answered t wr wrest (frameRead b rest s) =
      cycleEnd (.frame b) rest wr wrest ⟨some t, writeOutcome wr, false⟩ s := by
  have htrace : s.trace ++ cycleEvents s.port (.frame b) wr ⟨some t, writeOutcome wr, false⟩ =
      s.trace ++ readIssue s.port ++ [.readAnswered (.frame b)] ++
        [.writeIssued t, .writeAnswered wr, .outcome (writeOutcome wr)] := by simp [cycleEvents]
  rw [cycleEnd, htrace]
  rfl

/-- The halt is the end of a cycle whose read failed (R185). -/
theorem readFailed_eq_cycleEnd (rest : List ReadAnswer) (wr : WriteAnswer) (s : State) :
    readFailed rest s = cycleEnd .failure rest wr s.wrAnswers ⟨none, .readFailed, true⟩ s := by
  have htrace : s.trace ++ cycleEvents s.port .failure wr ⟨none, .readFailed, true⟩ =
      s.trace ++ readIssue s.port ++ [.readAnswered .failure] ++ [.outcome .readFailed] := by simp [cycleEvents]
  rw [cycleEnd, htrace]
  rfl

/-- From `ReadFrame` a step is `cycle`; an answer to the write has to stand just where `cycle` writes a frame (R158). -/
theorem step_eq_cycleEnd {s : State} {rx : ReadAnswer} {rest : List ReadAnswer} {wr : WriteAnswer}
    {wrest : List WriteAnswer} (hph : s.phase = .readFrame) (hp : s.port = .idle ∨ s.port = .reading)
    (hr : s.rxAnswers = rx :: rest) (hl : answerLength rx ≤ Config.maxLen)
    (ha : s.wrAnswers = if (cycle s.localHA s.localPA rx wr).tx.isSome then wr :: wrest else wrest) :
    step s = .next (cycleEnd rx rest wr wrest (cycle s.localHA s.localPA rx wr) s) := by
  cases rx with
  | failure =>
    rw [step_read_failure hph hp hr, readFailed_eq_cycleEnd rest wr, ha]
    rfl
  | frame b =>
    obtain ⟨i, hw, he⟩ := exists_encode hl
    rcases dropped_or_request he with ⟨c, hd⟩ | ⟨dst, src, sha, spa, tha, tpa, tail, rfl⟩
    · rw [(hd.dropsWith hw he).cycle_eq] at ha ⊢
      rw [step_dropped hph hp hr hd hw he, endCycle_frameRead b rest wr, ha]
      rfl
    · have hc := cycle_request s.localHA s.localPA wr dst src sha spa tha tpa tail
      cases he
      rw [hc] at ha ⊢
      rw [step_request_answered hph hp hr hw rfl ha, answered_frameRead]

/-- Settles O45: the write's answer is consumed just where `cycle` writes a frame. -/
theorem stepIsCycle : Obligations.StepIsCycle := by
  intro s rx rest wr wrest hph hp hr hl ha
  refine step_eq_cycleEnd (wrest := if (cycle s.localHA s.localPA rx wr).tx.isSome then wrest else wr :: wrest)
    hph hp hr hl ?_
  split <;> exact ha

/-- Settles O49: both steps are `cycle` of the same operands, for `cycle` does not read `LOCAL_PA` (R141). -/
theorem cyclesAreIndependent : Obligations.CyclesAreIndependent := by
  intro s₁ s₂ rx r₁ r₂ wr w₁ w₂ hph₁ hph₂ hp₁ hp₂ hla hr₁ hr₂ ha₁ ha₂ hl
  have hc : cycle s₂.localHA s₂.localPA rx wr = cycle s₁.localHA s₁.localPA rx wr := by rw [hla]; rfl
  have h₂ := stepIsCycle s₂ rx r₂ wr w₂ hph₂ hp₂ hr₂ hl ha₂
  rw [hc] at h₂
  exact ⟨_, _, cycleEvents .reading rx wr (cycle s₁.localHA s₁.localPA rx wr),
    stepIsCycle s₁ rx r₁ wr w₁ hph₁ hp₁ hr₁ hl ha₁, h₂, by simp [cycleEvents, readIssue], by simp [cycleEvents, readIssue],
    rfl⟩

/-! ### One read, and at most one write (R159) -/

@[simp] theorem framesWritten_append (t u : List Event) :
    framesWritten (t ++ u) = framesWritten t ++ framesWritten u := List.filterMap_append ..

@[simp] theorem readsIssued_append (t u : List Event) : readsIssued (t ++ u) = readsIssued t + readsIssued u :=
  List.countP_append ..

/-- The issue of a read writes no frame. -/
@[simp] theorem framesWritten_readIssue (p : Port) : framesWritten (readIssue p) = [] := by cases p <;> rfl

/-- The frames written in the cycle that reads the frame of instruction `i`: the reply, if that is a request (R159). -/
def repliesTo (la : HA) : Instr → List (List Byte)
  | .arpRequest _ _ sha spa _ tpa _ => [replyWire la sha spa tpa]
  | _ => []

theorem repliesTo_eq_nil {i : Instr} (la : HA) (h : classOf i ≠ some .arpRequest) : repliesTo la i = [] := by
  cases i with
  | arpRequest => exact absurd rfl h
  | _ => rfl

/-- What is recorded from `s` to `t`: the read, where it goes out, and its answer; then no read, and `w` written. -/
def RecordsCycle (b : List Byte) (w : List (List Byte)) (s t : State) : Prop :=
  ∃ es, t.trace = s.trace ++ readIssue s.port ++ .readAnswered (.frame b) :: es ∧ readsIssued es = 0 ∧
    framesWritten es = w

section
variable {b : List Byte} {w : List (List Byte)} {s t : State} (h : RecordsCycle b w s t)
include h

theorem RecordsCycle.framesWritten_eq : framesWritten t.trace = framesWritten s.trace ++ w := by
  obtain ⟨es, ht, -, rfl⟩ := h
  have hcons : framesWritten (.readAnswered (.frame b) :: es) = framesWritten es := rfl
  rw [ht, framesWritten_append, framesWritten_append, framesWritten_readIssue, hcons, List.append_nil]

theorem RecordsCycle.readsIssued_eq :
    readsIssued t.trace = readsIssued s.trace + readsIssued (readIssue s.port) := by
  obtain ⟨es, ht, hes, -⟩ := h
  have hcons : readsIssued (.readAnswered (.frame b) :: es) = readsIssued es := rfl
  rw [ht, readsIssued_append, readsIssued_append, hcons, hes, Nat.add_zero]

end

/-- A step that reads a frame ends the cycle, or waits with the reply written; either way it records just the cycle's
read and the reply, if the frame is a request (R159). -/
theorem step_recordsCycle {s : State} {b : List Byte} {rest : List ReadAnswer} {i : Instr} (hph : s.phase = .readFrame)
    (hp : s.port = .idle ∨ s.port = .reading) (hr : s.rxAnswers = .frame b :: rest) (hw : wellFormed i = true)
    (he : encode i = some b) : ∃ t, step s = .next t ∧ t.rxAnswers = rest ∧ t.phase ≠ .halted ∧
      RecordsCycle b (repliesTo s.localHA i) s t := by
  rcases dropped_or_request he with ⟨c, hd⟩ | ⟨dst, src, sha, spa, tha, tpa, tail, rfl⟩
  · rw [repliesTo_eq_nil s.localHA hd.classOf_ne]
    exact ⟨_, step_dropped hph hp hr hd hw he, rfl, by simp, [.outcome c], by simp, rfl, rfl⟩
  · rcases ha : s.wrAnswers with _ | ⟨a, wrest⟩
    · exact ⟨_, step_request_blocked hph hp hr hw he ha, rfl, by simp, [.writeIssued _], by simp, rfl, rfl⟩
    · exact ⟨_, step_request_answered hph hp hr hw he ha, rfl, by simp,
        [.writeIssued _, .writeAnswered a, .outcome (writeOutcome a)], by simp, rfl, rfl⟩

/-- Settles O50: the reads and the frames counted are those of the cycle recorded. -/
theorem oneReadAndAtMostOneWritePerCycle : Obligations.OneReadAndAtMostOneWritePerCycle := by
  intro s b rest hph hp hr hl
  obtain ⟨i, hw, he⟩ := exists_encode hl
  obtain ⟨t, ht, hrx, hne, hrec⟩ := step_recordsCycle hph hp hr hw he
  refine ⟨t, i, ht, decodeOfEncodedInstruction i b hw he, hrx, hne, fun hp => ?_, fun hp => ?_, fun hc => ?_, ?_⟩
  · rw [hrec.readsIssued_eq, hp]; rfl
  · rw [hrec.readsIssued_eq, hp]; rfl
  · rw [hrec.framesWritten_eq, repliesTo_eq_nil _ hc, List.append_nil]
  · rintro dst src sha spa tha tpa tail rfl
    exact hrec.framesWritten_eq

end Sys2Proof.Machine
end

section
/-! PROOFS. What a phase can do from a state that meets the invariant (44_frame_dispatcher.md R150 to R157), said once;
and from it, that every frame written is a reply (R226). -/

namespace Sys2Proof.Machine

/-! ### Everything a phase can do (R150) -/

/-- A cycle is under way past its read: the phase is none of the two in which a cycle has ended (R150). -/
def UnderWay (s : State) : Prop := s.phase ≠ .readFrame ∧ s.phase ≠ .halted

/-- The bytes are those of the reply to some request (R82, R156). -/
def IsReply (w : List Byte) : Prop := ∃ la sha spa tpa, w = replyWire la sha spa tpa

/-- Everything a phase can do from a state that meets the invariant. -/
inductive PhaseMove (s : State) : State → Prop
  /-- the read is not answered (R195) -/
  | readWaits (hph : s.phase = .readFrame) : PhaseMove s (readWaiting s)
  /-- a frame is read (R151) -/
  | reads (b : List Byte) (rest : List ReadAnswer) (hph : s.phase = .readFrame) : PhaseMove s (frameRead b rest s)
  /-- the read fails (R185) -/
  | fails (rest : List ReadAnswer) (hph : s.phase = .readFrame) : PhaseMove s (readFailed rest s)
  /-- a register is written, and the cycle goes on (R152 to R155) -/
  | goesOn {t : State} (hs : UnderWay s) (ht : UnderWay t) (hport : t.port = s.port) (htrace : t.trace = s.trace)
      (hheld : heldFrame t = heldFrame s) : PhaseMove s t
  /-- the frame is dropped (R183) -/
  | drops (c : OutcomeCode) (hs : UnderWay s) : PhaseMove s (endCycle c s)
  /-- the reply goes out, and is not answered yet (R156, R224) -/
  | writes {w : List Byte} (hw : IsReply w) (hs : UnderWay s) : PhaseMove s (writeWaiting w s)
  /-- the reply goes out and is answered (R156) -/
  | writesAnswered {w : List Byte} (a : WriteAnswer) (rest : List WriteAnswer) (hw : IsReply w) (hs : UnderWay s) :
      PhaseMove s (answered w a rest s)
  /-- the reply in flight is answered (R156) -/
  | replyAnswered (a : WriteAnswer) (rest : List WriteAnswer) (hs : UnderWay s) :
      PhaseMove s (endCycle (writeOutcome a) (answerWrite a rest s))
  /-- the reply in flight is waited for, or the core is halted (R157, R224) -/
  | stays : PhaseMove s s

/-- The reply `handle` gives, wrapped and encoded, is the 42 bytes of R82's last column (R140, R142). -/
theorem encodeEthernet_wrapReply_of_handle {m r : ArpMessage} {la : HA} {lp : PA} (h : handle m la lp = .ok r) :
    encodeEthernet (wrapReply m r la) = replyWire la m.sha m.spa m.tpa := by
  obtain ⟨⟨ho, hv⟩, rfl⟩ := handle_eq_ok_iff.1 h
  have hm : m = supportedMessage Config.opRequest m.sha m.spa m.tha m.tpa := by
    rw [show Config.opRequest = m.oper from ho.symm]
    exact eq_supportedMessage hv
  rw [← encodeEthernet_wrapReply_replyTo m.sha m.spa m.tha m.tpa la, ← hm]

section
variable {s t : State}

theorem phaseReadFrame_move (hp : s.port = .idle ∨ s.port = .reading) (hph : s.phase = .readFrame)
    (ht : phaseReadFrame s = .next t) : PhaseMove s t := by
  rcases phaseReadFrame_cases hp with ⟨-, ho⟩ | ⟨b, rest, -, -, ho⟩ | ⟨rest, -, ho⟩ | ⟨a, rest, -, -, ho⟩ <;>
    cases ho.symm.trans ht
  · exact .readWaits hph
  · exact .reads b rest hph
  · exact .fails rest hph

theorem phaseDecodeEthernet_move (hs : UnderWay s) (ht : phaseDecodeEthernet s = .next t) : PhaseMove s t := by
  unfold phaseDecodeEthernet decodeEthernetOn at ht
  split at ht
  · cases ht
  split at ht <;> cases ht
  · exact .goesOn hs (by simp [UnderWay]) rfl rfl rfl
  · exact .drops _ hs

theorem phaseClassify_move (hs : UnderWay s) (ht : phaseClassify s = .next t) : PhaseMove s t := by
  unfold phaseClassify at ht
  split at ht
  · cases ht
  split at ht <;> cases ht
  · exact .goesOn hs (by simp [UnderWay]) rfl rfl rfl
  · exact .drops _ hs

theorem phaseDecodeArp_move (hs : UnderWay s) (ht : phaseDecodeArp s = .next t) : PhaseMove s t := by
  unfold phaseDecodeArp at ht
  split at ht
  · cases ht
  split at ht <;> cases ht
  · exact .goesOn hs (by simp [UnderWay]) rfl rfl rfl
  · exact .drops _ hs

theorem phaseRespond_move (hs : UnderWay s) (ht : phaseRespond s = .next t) : PhaseMove s t := by
  unfold phaseRespond at ht
  split at ht
  · cases ht
  split at ht <;> cases ht
  · exact .goesOn hs (by simp [UnderWay]) rfl rfl rfl
  · exact .drops _ hs

theorem phaseEncodeAndWrite_move (h : Inv s) (hph : s.phase = .encodeAndWrite) (ht : phaseEncodeAndWrite s = .next t) :
    PhaseMove s t := by
  have hs : UnderWay s := by simp [UnderWay, hph]
  have ⟨_, _, hi⟩ := h
  obtain ⟨-, -, hh, hport⟩ := (phaseInv_encodeAndWrite hph).1 hi
  obtain ⟨m, r, hm, hr, hd⟩ := replyHeld_iff.1 hh
  have hw : IsReply (encodeEthernet (wrapReply m r s.localHA)) := ⟨_, _, _, _, encodeEthernet_wrapReply_of_handle hd⟩
  rcases hport with ⟨hp, -⟩ | ⟨b, hp, -, -, hb⟩
  · rcases ha : s.wrAnswers with _ | ⟨a, rest⟩
    · cases (phaseEncodeAndWrite_idle_blocked hm hr rfl hp ha).symm.trans ht
      exact .writes hw hs
    · cases (phaseEncodeAndWrite_idle_answered hm hr rfl hp ha).symm.trans ht
      exact .writesAnswered a rest hw hs
  · have hb := ((replyWritten_iff hm hr).1 hb).symm
    rcases ha : s.wrAnswers with _ | ⟨a, rest⟩
    · cases (phaseEncodeAndWrite_writing_blocked hm hr hb hp ha).symm.trans ht
      rw [loadTx_eq_self h hph hp]
      exact .stays
    · cases (phaseEncodeAndWrite_writing_answered hm hr hb hp ha).symm.trans ht
      exact .replyAnswered a rest hs

/-- From a state that meets the invariant a phase makes one of these moves (R150). -/
theorem phaseStep_move (h : Inv s) (ht : phaseStep s = .next t) : PhaseMove s t := by
  cases hph : s.phase with
  | readFrame =>
    obtain ⟨-, hp⟩ := (phaseInv_readFrame hph).1 h.2.2
    exact phaseReadFrame_move hp hph (phaseStep_readFrame hph ▸ ht)
  | decodeEthernet =>
    exact phaseDecodeEthernet_move (by simp [UnderWay, hph]) (phaseStep_decodeEthernet hph ▸ ht)
  | classify => exact phaseClassify_move (by simp [UnderWay, hph]) (phaseStep_classify hph ▸ ht)
  | decodeArp => exact phaseDecodeArp_move (by simp [UnderWay, hph]) (phaseStep_decodeArp hph ▸ ht)
  | respond => exact phaseRespond_move (by simp [UnderWay, hph]) (phaseStep_respond hph ▸ ht)
  | encodeAndWrite => exact phaseEncodeAndWrite_move h hph (phaseStep_encodeAndWrite hph ▸ ht)
  | halted =>
    cases (phaseStep_halted hph).symm.trans ht
    exact .stays

end

/-! ### A step is one or more phases (R158) -/

/-- One phase, from a state that meets the invariant. -/
def PhaseTo (s t : State) : Prop := Inv s ∧ phaseStep s = .next t

/-- A phase keeps the invariant. -/
theorem PhaseTo.inv {s t : State} (h : PhaseTo s t) : Inv t := by
  obtain ⟨hs, ht⟩ := h
  rcases phaseStep_goesOn hs with ⟨u, hu, hi, -⟩ | ⟨-, a, rest, -, -, hf⟩
  · cases hu.symm.trans ht
    exact hi
  · cases hf.symm.trans ht

theorem runPhases_transGen {k : Nat} {s t : State} (h : Inv s) (ht : runPhases (k + 1) s = .next t) :
    Relation.TransGen PhaseTo s t := by
  induction k generalizing s with
  | zero =>
    obtain ⟨u, hu, hut⟩ := andThen_eq_next ht
    obtain rfl : u = t := by split at hut <;> exact Host.Outcome.next.inj hut
    exact .single ⟨h, hu⟩
  | succ k ih =>
    obtain ⟨u, hu, hut⟩ := andThen_eq_next ht
    have hsu : PhaseTo s u := ⟨h, hu⟩
    split at hut
    · cases hut
      exact .single hsu
    · exact .head hsu (ih hsu.inv hut)

/-- From a state that meets the invariant a step is one phase or more (R158). -/
theorem step_transGen {s t : State} (h : Inv s) (ht : step s = .next t) : Relation.TransGen PhaseTo s t := by
  obtain ⟨hcycle, hone⟩ := stepIsTheCompositionOfPhases s h
  by_cases hph : s.phase = .readFrame ∨ s.phase = .decodeEthernet
  · exact runPhases_transGen h (hcycle hph ▸ ht)
  · obtain ⟨hr, hd⟩ := not_or.1 hph
    exact .single ⟨h, hone hr hd ▸ ht⟩

/-! ### Every frame written is a reply (R156, R226) -/

/-- A reply has 42 bytes, with the fixed bytes of R82's last column at 12 to 21. -/
theorem IsReply.bytes {w : List Byte} (h : IsReply w) : w.length = 42 ∧ (w.drop 12).take 10 =
    [0x08#8, 0x06#8, 0x00#8, 0x01#8, 0x08#8, 0x00#8, 0x06#8, 0x04#8, 0x00#8, 0x02#8] := by
  obtain ⟨la, sha, spa, tpa, rfl⟩ := h
  exact ⟨rfl, rfl⟩

/-- From `s` to `t` events are added, and every frame handed to the device in them is a reply. -/
def WritesReplies (s t : State) : Prop := ∃ es, t.trace = s.trace ++ es ∧ ∀ w ∈ framesWritten es, IsReply w

theorem WritesReplies.trans {s t u : State} (hst : WritesReplies s t) (htu : WritesReplies t u) :
    WritesReplies s u := by
  obtain ⟨es, hes, hw⟩ := hst
  obtain ⟨fs, hfs, hv⟩ := htu
  refine ⟨es ++ fs, by rw [hfs, hes, List.append_assoc], fun w h => ?_⟩
  rw [framesWritten_append] at h
  exact (List.mem_append.1 h).elim (hw w) (hv w)

/-- Events that hand over no frame. -/
theorem WritesReplies.of_none {s t : State} {es : List Event} (h : t.trace = s.trace ++ es)
    (hes : framesWritten es = []) : WritesReplies s t := ⟨es, h, by simp [hes]⟩

/-- Events that hand over the one frame `w`. -/
theorem WritesReplies.of_single {s t : State} {es : List Event} {w : List Byte} (hw : IsReply w)
    (h : t.trace = s.trace ++ es) (hes : framesWritten es = [w]) : WritesReplies s t :=
  ⟨es, h, by simpa [hes] using hw⟩

/-- A phase writes at most one frame, and that is a reply. -/
theorem PhaseMove.writesReplies {s t : State} (h : PhaseMove s t) : WritesReplies s t := by
  cases h with
  | readWaits => exact .of_none (readWaiting_trace s) (framesWritten_readIssue _)
  | reads b rest =>
    exact .of_none (es := readIssue s.port ++ [.readAnswered (.frame b)]) (by simp)
      (by rw [framesWritten_append, framesWritten_readIssue]; rfl)
  | fails rest =>
    exact .of_none (es := readIssue s.port ++ [.readAnswered .failure, .outcome .readFailed]) (by simp)
      (by rw [framesWritten_append, framesWritten_readIssue]; rfl)
  | goesOn _ _ _ htrace => exact .of_none (es := []) (by simp [htrace]) rfl
  | drops c => exact .of_none (endCycle_trace s c) rfl
  | writes hw => exact .of_single hw (writeWaiting_trace _ s) rfl
  | writesAnswered a rest hw => exact .of_single hw (answered_trace _ a rest s) rfl
  | replyAnswered a rest => exact .of_none (es := [.writeAnswered a, .outcome (writeOutcome a)]) (by simp) rfl
  | stays => exact .of_none (es := []) (by simp) rfl

/-- So does a step, phase by phase. -/
theorem step_writesReplies {s t : State} (h : Inv s) (ht : step s = .next t) : WritesReplies s t := by
  have hphase {u v : State} (huv : PhaseTo u v) : WritesReplies u v := (phaseStep_move huv.1 huv.2).writesReplies
  have hmoves := step_transGen h ht
  clear ht
  induction hmoves with
  | single huv => exact hphase huv
  | tail _ huv ih => exact ih.trans (hphase huv)

/-- Settles O51: what a step writes are replies, and their fixed bytes are those of R82's last column. -/
theorem everyFrameWrittenIsAReply : Obligations.EveryFrameWrittenIsAReply := by
  intro s t h ht
  obtain ⟨es, hes, hw⟩ := step_writesReplies h ht
  exact ⟨es, hes, fun b hb => (hw b hb).bytes⟩

end Sys2Proof.Machine
end

section
/-! PROOFS. Runs (44_frame_dispatcher.md R164): what the environment observes of one, that it is the concatenation of its
cycles (R165), and the ways in which it can go on or end (R215). -/

namespace Sys2Proof.Machine

/-! ### What is observed (R164) -/

/-- The issue of a read is nothing R164 observes. -/
@[simp] theorem observe_readIssue (t : List Event) (p : Port) : observe (t ++ readIssue p) = observe t := by
  rw [observe_append]
  cases p <;> rfl

theorem observe_readAnswered (t : List Event) (a : ReadAnswer) :
    observe (t ++ [.readAnswered a]) = ⟨(observe t).cycles, some a, none, none⟩ := observe_append ..

theorem observe_writeIssued (t : List Event) (w : List Byte) :
    observe (t ++ [.writeIssued w]) = { observe t with frame := some w } := observe_append ..

theorem observe_writeAnswered (t : List Event) (a : WriteAnswer) :
    observe (t ++ [.writeAnswered a]) = { observe t with answer := some a } := observe_append ..

/-- The outcome ends the cycle whose read was answered (R150). -/
theorem observe_outcome {t : List Event} {a : ReadAnswer} (h : (observe t).read = some a) (c : OutcomeCode) :
    observe (t ++ [.outcome c]) =
      ⟨(observe t).cycles ++ [⟨a, (observe t).frame, (observe t).answer, c⟩], none, none, none⟩ := by
  rw [observe_append]
  show see (observe t) (.outcome c) = _
  simp only [see, h]

/-- The events of a cycle show that cycle, once more (R164). -/
theorem observe_cycleEvents (t : List Event) (p : Port) (rx : ReadAnswer) (wr : WriteAnswer) (r : CycleResult) :
    observe (t ++ cycleEvents p rx wr r) =
      ⟨(observe t).cycles ++ [⟨rx, r.tx, r.tx.map fun _ => wr, r.outcome⟩], none, none, none⟩ := by
  obtain ⟨tx, c, halt⟩ := r
  have hread : observe (t ++ readIssue p ++ [.readAnswered rx]) = ⟨(observe t).cycles, some rx, none, none⟩ := by
    rw [observe_readAnswered, observe_readIssue]
  cases tx with
  | none =>
    have hes : t ++ cycleEvents p rx wr ⟨none, c, halt⟩ = t ++ readIssue p ++ [.readAnswered rx] ++ [.outcome c] := by
      simp [cycleEvents]
    rw [hes, observe_outcome (a := rx) (by rw [hread]), hread]
    rfl
  | some w =>
    have hes : t ++ cycleEvents p rx wr ⟨some w, c, halt⟩ = t ++ readIssue p ++ [.readAnswered rx] ++ [.writeIssued w] ++
        [.writeAnswered wr] ++ [.outcome c] := by simp [cycleEvents]
    have hwrite : observe (t ++ readIssue p ++ [.readAnswered rx] ++ [.writeIssued w] ++ [.writeAnswered wr]) =
        ⟨(observe t).cycles, some rx, some w, some wr⟩ := by
      rw [observe_writeAnswered, observe_writeIssued, hread]
    rw [hes, observe_outcome (a := rx) (by rw [hwrite]), hwrite]
    rfl

/-! ### A run keeps what its moves keep -/

/-- What holds at the start of a run, and is kept by each move after the device's answers, holds all along, and the run
does not stop. -/
theorem runBy_invariant {next : State → Out} {dev : Device} {P : Nat → State → Prop} {s : State} (h0 : P 0 s)
    (hmove : ∀ n t, P n t → ∃ u, next (deliver (dev n).1 (dev n).2 t) = .next u ∧ P (n + 1) u) (n : Nat) :
    ∃ t, runBy next dev n s = .next t ∧ P n t := by
  induction n with
  | zero => exact ⟨s, rfl, h0⟩
  | succ n ih =>
    obtain ⟨t, ht, hP⟩ := ih
    rw [runBy_succ_eq ht]
    exact hmove n t hP

/-! ### The concatenation of cycles (R164, R165) -/

/-- Between two cycles of a run with the identity `(la, lp)`, all that was delivered consumed: what is seen is `recs`. -/
structure BetweenCycles (la : HA) (lp : PA) (recs : List CycleRecord) (t : State) : Prop where
  phase : t.phase = .readFrame
  port : t.port = .idle
  clear : workingClear t = true
  localHA : t.localHA = la
  localPA : t.localPA = lp
  rxAnswers : t.rxAnswers = []
  wrAnswers : t.wrAnswers = []
  seen : cyclesSeen t = recs

/-- A frame does not halt the core (R159). -/
theorem cycle_frame_halt (la : HA) (lp : PA) {b : List Byte} (hl : b.length ≤ Config.maxLen) (wr : WriteAnswer) :
    (cycle la lp (.frame b) wr).halt = false := by
  obtain ⟨i, hw, he⟩ := exists_encode hl
  rcases dropped_or_request he with ⟨c, hd⟩ | ⟨dst, src, sha, spa, tha, tpa, tail, rfl⟩
  · rw [(hd.dropsWith hw he).cycle_eq]
  · cases he
    rw [cycle_request]

/-- A step from there, once a frame and the answer to the write it causes are delivered, is one cycle more. -/
theorem BetweenCycles.step {la : HA} {lp : PA} {recs : List CycleRecord} {t : State} (h : BetweenCycles la lp recs t)
    {b : List Byte} (hl : b.length ≤ Config.maxLen) (wr : WriteAnswer) :
    ∃ u, Machine.step (deliver [.frame b] (if (cycle la lp (.frame b) wr).tx.isSome then [wr] else []) t) = .next u ∧
      BetweenCycles la lp (recs ++ [cycleRecord la lp (.frame b) wr]) u := by
  obtain ⟨hph, hport, -, rfl, rfl, hrx, hwr, rfl⟩ := h
  refine ⟨_, step_eq_cycleEnd (rx := .frame b) (rest := []) (wr := wr) (wrest := []) hph (.inl hport) (by simp [hrx]) hl
    (by rw [deliver_wrAnswers, hwr]; rfl), ?_⟩
  refine ⟨?_, rfl, rfl, rfl, rfl, rfl, rfl, ?_⟩
  · simp [cycleEnd, cycle_frame_halt _ _ hl]
  · exact congrArg Observation.cycles (observe_cycleEvents ..)

/-- Settles O9, cycle after cycle. -/
theorem runIsTheConcatenationOfItsCycles : Obligations.RunIsTheConcatenationOfItsCycles := by
  intro la lp f w dev hl hdev n
  obtain ⟨t, ht, hb⟩ := runBy_invariant (next := step) (dev := dev) (s := resetWith la lp)
    (P := fun n => BetweenCycles la lp ((List.range n).map fun k => cycleRecord la lp (.frame (f k)) (w k)))
    ⟨rfl, rfl, rfl, rfl, rfl, rfl, rfl, rfl⟩
    (fun n t h => by
      rw [List.range_succ, List.map_append, hdev n]
      exact h.step (hl n) (w n)) n
  exact ⟨t, ht, hb.phase, hb.clear, hb.seen⟩

/-! ### What a run shows of the cycle under way (R211, R215) -/

/-- Nothing is seen of a cycle where none is under way; else the frame in hand is what was read, the write in flight
what was written, and no answer to it has been seen. -/
def Shows (t : State) : Prop :=
  (t.phase = .readFrame ∨ t.phase = .halted → cycleUnderWay t = (none, none, none)) ∧
  (UnderWay t → ∃ b, heldFrame t = .ok b ∧ cycleUnderWay t = (some (.frame b), writeInFlight t.port, none))

/-- After an outcome no cycle is under way (R150). -/
theorem cycleUnderWay_outcome {t : State} {es : List Event} {c : OutcomeCode} (ht : t.trace = es ++ [.outcome c]) :
    cycleUnderWay t = (none, none, none) := by
  have hsee : observe t.trace = see (observe es) (.outcome c) := by rw [ht, observe_append]; rfl
  cases hread : (observe es).read <;> simp [cycleUnderWay, hsee, see, hread]

/-- So a state that an outcome has led to shows nothing of one. -/
theorem shows_outcome {t : State} {es : List Event} {c : OutcomeCode} (hph : t.phase = .readFrame ∨ t.phase = .halted)
    (ht : t.trace = es ++ [.outcome c]) : Shows t :=
  ⟨fun _ => cycleUnderWay_outcome ht, fun h => absurd hph (not_or.2 h)⟩

/-- A phase shows what it does. -/
theorem PhaseMove.shows {s t : State} (h : PhaseMove s t) (hs : Shows s) : Shows t := by
  cases h with
  | readWaits hph =>
    refine ⟨fun _ => ?_, fun ht => absurd hph ht.1⟩
    rw [← hs.1 (.inl hph), cycleUnderWay, readWaiting_trace, observe_readIssue, cycleUnderWay]
  | reads b rest =>
    refine ⟨by simp, fun _ => ⟨b, heldFrame_frameRead b rest s, ?_⟩⟩
    rw [cycleUnderWay, frameRead_trace, observe_readAnswered]
    rfl
  | fails rest => 
    exact shows_outcome (es := s.trace ++ readIssue s.port ++ [.readAnswered .failure]) (c := .readFailed) (.inr rfl)
      (by simp)
  | goesOn hu ht hport htrace hheld =>
    refine ⟨fun hph => absurd hph (not_or.2 ht), fun _ => ?_⟩
    obtain ⟨b, hb, hc⟩ := hs.2 hu
    exact ⟨b, hheld.trans hb, by rw [← hport] at hc; rw [← hc, cycleUnderWay, htrace, cycleUnderWay]⟩
  | drops c => exact shows_outcome (.inl rfl) (endCycle_trace s c)
  | @writes w _ hu =>
    refine ⟨fun hph => absurd hph (not_or.2 hu), fun _ => ?_⟩
    obtain ⟨b, hb, hc⟩ := hs.2 hu
    refine ⟨b, hb, ?_⟩
    rw [cycleUnderWay] at hc
    obtain ⟨hread, -, hanswer⟩ : _ ∧ _ ∧ _ := by simpa using hc
    rw [cycleUnderWay, writeWaiting_trace, observe_writeIssued, hread, hanswer]
    rfl
  | @writesAnswered w a rest =>
    exact shows_outcome (es := s.trace ++ [.writeIssued w, .writeAnswered a]) (c := writeOutcome a) (.inl rfl) (by simp)
  | replyAnswered a rest => exact shows_outcome (.inl rfl) (endCycle_trace _ _)
  | stays => exact hs

/-- The invariant of a run: the core's own, a lawful device, and a trace that shows the state. -/
structure Sound (t : State) : Prop where
  inv : Inv t
  lawful : DeviceLawful t
  shows : Shows t

/-- A delivery that keeps R161 keeps it. -/
theorem Sound.deliver {rx : List ReadAnswer} {wr : List WriteAnswer} {t : State} (h : Sound t)
    (hrx : ∀ a ∈ rx, answerLength a ≤ Config.maxLen) : Sound (deliver rx wr t) :=
  ⟨inv_deliver h.inv, deviceLawful_deliver h.lawful hrx, h.shows⟩

/-- A phase keeps it, and does not stop. -/
theorem Sound.phaseStep {t : State} (h : Sound t) : ∃ u, Machine.phaseStep t = .next u ∧ Sound u := by
  rcases phaseStep_goesOn h.inv with ⟨u, hu, hi, hr⟩ | ⟨-, a, rest, hr, hl, -⟩
  · exact ⟨u, hu, hi, fun a ha => h.lawful a (hr.subset ha), (phaseStep_move h.inv hu).shows h.shows⟩
  · exact absurd (h.lawful a (by simp [hr])) (Nat.not_le.2 hl)

/-- So does a step, phase by phase. -/
theorem Sound.step {t : State} (h : Sound t) : ∃ u, Machine.step t = .next u ∧ Sound u := by
  obtain ⟨u, hu, hi, hd⟩ := noStepStops t h.inv h.lawful
  refine ⟨u, hu, hi, hd, ?_⟩
  have hmoves := step_transGen h.inv hu
  clear hu hi hd
  induction hmoves with
  | single hv => exact (phaseStep_move hv.1 hv.2).shows h.shows
  | tail _ hv ih => exact (phaseStep_move hv.1 hv.2).shows ih

/-- The device keeps R161 all along. -/
def Lawful (dev : Device) : Prop := ∀ k, ∀ a ∈ (dev k).1, answerLength a ≤ Config.maxLen

theorem sound_resetWith (la : HA) (lp : PA) : Sound (resetWith la lp) where
  inv := resetMeetsTheInvariant.2 la lp [] [] State.reset
  lawful := fun _ h => nomatch h
  shows := ⟨fun _ => rfl, fun h => absurd rfl h.1⟩

section
variable {dev : Device} (hdev : Lawful dev) (la : HA) (lp : PA)
include hdev

theorem phaseRun_sound (n : Nat) : ∃ t, phaseRun dev n (resetWith la lp) = .next t ∧ Sound t :=
  runBy_invariant (P := fun _ => Sound) (sound_resetWith la lp) (fun n _ h => (h.deliver (hdev n)).phaseStep) n

theorem run_sound (n : Nat) : ∃ t, run dev n (resetWith la lp) = .next t ∧ Sound t :=
  runBy_invariant (P := fun _ => Sound) (sound_resetWith la lp) (fun n _ h => (h.deliver (hdev n)).step) n

end

/-! ### By phases a run passes every state it passes by cycles (R150, R211) -/

/-- With some lawful device the run by phases from `s` can be stopped in `t`. -/
def Stoppable (s t : State) : Prop := ∃ dev, Lawful dev ∧ RunStops dev s t

/-- The device that has answered nothing yet. -/
theorem stoppable_self (s : State) : Stoppable s s := ⟨fun _ => ([], []), fun _ _ h => (nomatch h), 0, rfl⟩

/-- A phase after one more delivery is one more move of a run with a device that delivers it then. -/
theorem Stoppable.phaseStep {s t u : State} (h : Stoppable s t) {rx : List ReadAnswer} (wr : List WriteAnswer)
    (hrx : ∀ a ∈ rx, answerLength a ≤ Config.maxLen) (hu : Machine.phaseStep (deliver rx wr t) = .next u) :
    Stoppable s u := by
  obtain ⟨dev, hdev, n, hn⟩ := h
  refine ⟨Function.update dev n (rx, wr), fun k => ?_, n + 1, ?_⟩
  · by_cases hk : k = n
    · subst hk; simpa using hrx
    · simpa [Function.update_of_ne hk] using hdev k
  · have hsame : phaseRun (Function.update dev n (rx, wr)) n s = .next t := by
      rw [← hn]
      exact phaseRun_congr fun k hk => Function.update_of_ne (Nat.ne_of_lt hk) ..
    rw [phaseRun_succ_eq hsame, Function.update_self]
    exact hu

theorem deliver_nothing (t : State) : deliver [] [] t = t := by simp [deliver]

/-- Without a delivery too. -/
theorem Stoppable.phaseStep_silent {s t u : State} (h : Stoppable s t) (hu : Machine.phaseStep t = .next u) :
    Stoppable s u :=
  h.phaseStep (rx := []) [] (fun _ h => (nomatch h)) (by rwa [deliver_nothing])

/-- A step after a delivery: the delivery before its first phase. -/
theorem Stoppable.step {s t u : State} (h : Stoppable s t) {rx : List ReadAnswer} (wr : List WriteAnswer) (hi : Inv t)
    (hrx : ∀ a ∈ rx, answerLength a ≤ Config.maxLen) (hu : Machine.step (deliver rx wr t) = .next u) :
    Stoppable s u := by
  have hmoves := step_transGen (inv_deliver hi) hu
  clear hu
  induction hmoves with
  | single hv => exact h.phaseStep wr hrx hv.2
  | tail _ hv ih => exact ih.phaseStep_silent hv.2

theorem run_stoppable {dev : Device} (hdev : Lawful dev) (la : HA) (lp : PA) {n : Nat} {t : State}
    (ht : run dev n (resetWith la lp) = .next t) : Stoppable (resetWith la lp) t := by
  induction n generalizing t with
  | zero => cases ht; exact stoppable_self _
  | succ n ih =>
    obtain ⟨u, hu, hut⟩ := run_eq_next ht
    obtain ⟨v, hv, hsound⟩ := run_sound hdev la lp n
    cases hv.symm.trans hu
    exact (ih hu).step _ hsound.inv (hdev n) hut

/-! ### A run can be stopped in every phase (R215, D16) -/

/-- In every phase some run can be stopped: a request passes all but `Halted`, to which a read failure leads. -/
theorem exists_stoppable (la : HA) (lp : PA) (p : Phase) : ∃ t, Stoppable (resetWith la lp) t ∧ t.phase = p := by
  have hread : Stoppable (resetWith la lp) (resetWith la lp) := stoppable_self _
  have hl : (arpFrameBytes la la Config.opRequest la lp la lp []).length ≤ Config.maxLen :=
    le_trans (by simp) maxLen_ge
  have hframe := hread.phaseStep (rx := [.frame _]) [] (by simpa [answerLength] using hl)
    ((phaseStep_readFrame rfl).trans (phaseReadFrame_frame (.inl rfl) rfl hl))
  have hclassify := hframe.phaseStep_silent
    ((phaseStep_heldFrame rfl (heldFrame_frameRead ..)).trans (decodeEthernetOn_ok _ (decodeEthernet_frameBytes ..)))
  have hdecode := hclassify.phaseStep_silent (phaseStep_classifying_arp rfl)
  have hrespond := hdecode.phaseStep_silent (phaseStep_decoding_ok (decodeArp_arpBytes ..))
  have hready := hrespond.phaseStep_silent
    (phaseStep_responding_ok ((handle_supportedMessage ..).trans (if_pos rfl)))
  have hhalt := hread.phaseStep (rx := [.failure]) [] (by simp [answerLength])
    ((phaseStep_readFrame rfl).trans (phaseReadFrame_failure (.inl rfl) rfl))
  cases p with
  | readFrame => exact ⟨_, hread, rfl⟩
  | decodeEthernet => exact ⟨_, hframe, rfl⟩
  | classify => exact ⟨_, hclassify, rfl⟩
  | decodeArp => exact ⟨_, hdecode, rfl⟩
  | respond => exact ⟨_, hrespond, rfl⟩
  | encodeAndWrite => exact ⟨_, hready, rfl⟩
  | halted => exact ⟨_, hhalt, rfl⟩

end Sys2Proof.Machine
end

section
/-! PROOFS. The ways of a run (44_frame_dispatcher.md R164): by cycles it halts, goes on for ever, or waits for ever. -/

namespace Sys2Proof.Machine

/-! ### Where a step of a run ends (R158) -/

/-- Nothing more happens without the device, or the next read: the states in which the steps of a run end. -/
def Paused (t : State) : Prop :=
  t.phase = .readFrame ∨ t.phase = .halted ∨ t.phase = .encodeAndWrite ∧ ∃ w, t.port = .writing w

/-- Nothing that the environment sees tells the two states apart (R164, R224). -/
def StaysAt (s t : State) : Prop := t.phase = s.phase ∧ t.port = s.port ∧ t.trace = s.trace

theorem StaysAt.refl (s : State) : StaysAt s s := ⟨rfl, rfl, rfl⟩

theorem StaysAt.trans {s t u : State} (hst : StaysAt s t) (htu : StaysAt t u) : StaysAt s u :=
  ⟨htu.1.trans hst.1, htu.2.1.trans hst.2.1, htu.2.2.trans hst.2.2⟩

/-- How a step of a run can end. -/
inductive StepEnd (s t : State) : Prop
  /-- the core has halted (R185) -/
  | halts (ht : t.phase = .halted)
  /-- one more cycle has ended (R150) -/
  | ends (ht : t.phase = .readFrame) (hc : (cyclesSeen s).length < (cyclesSeen t).length)
  /-- the read is not answered (R195) -/
  | readWaits (hs : s.phase = .readFrame) (ht : t.phase = .readFrame) (hport : t.port = .reading)
      (htrace : t.trace = s.trace ++ readIssue s.port)
  /-- a request has been read, and the reply is not answered (R224) -/
  | writes (hs : s.phase = .readFrame) (ht : t.phase = .encodeAndWrite) (hport : ∃ w, t.port = .writing w)
  /-- the reply in flight is still not answered (R224) -/
  | stays (hs : s.phase = .encodeAndWrite) (hport : ∃ w, s.port = .writing w) (h : StaysAt s t)

/-- Another cycle is seen at the end of a cycle (R164). -/
theorem cyclesSeen_cycleEnd_length (rx : ReadAnswer) (rest : List ReadAnswer) (wr : WriteAnswer)
    (wrest : List WriteAnswer) (r : CycleResult) (s : State) :
    (cyclesSeen s).length < (cyclesSeen (cycleEnd rx rest wr wrest r s)).length := by
  have htrace : (cycleEnd rx rest wr wrest r s).trace = s.trace ++ cycleEvents s.port rx wr r := rfl
  rw [cyclesSeen, cyclesSeen, htrace, observe_cycleEvents]
  simp

section
variable {s t : State} (h : Sound s)
include h

/-- From `ReadFrame`, by the answers that stand (R158). -/
theorem stepEnd_readFrame (hph : s.phase = .readFrame) (ht : step s = .next t) : StepEnd s t := by
  obtain ⟨-, hp⟩ := (phaseInv_readFrame hph).1 h.inv.2.2
  rcases hr : s.rxAnswers with _ | ⟨_ | _, rest⟩
  · cases (step_read_blocked hph hp hr).symm.trans ht
    exact .readWaits hph hph rfl rfl
  case frame b =>
    obtain ⟨i, hw, he⟩ := exists_encode (b := b) (h.lawful (.frame b) (by simp [hr]))
    rcases dropped_or_request he with ⟨c, hd⟩ | ⟨dst, src, sha, spa, tha, tpa, tail, rfl⟩
    · cases (step_dropped hph hp hr hd hw he).symm.trans ht
      refine .ends rfl ?_
      rw [endCycle_frameRead b rest .failure]
      exact cyclesSeen_cycleEnd_length ..
    · rcases ha : s.wrAnswers with _ | ⟨a, wrest⟩
      · cases (step_request_blocked hph hp hr hw he ha).symm.trans ht
        exact .writes hph (requestWaiting_phase ..) ⟨_, requestWaiting_port ..⟩
      · cases (step_request_answered hph hp hr hw he ha).symm.trans ht
        refine .ends rfl ?_
        rw [answered_frameRead]
        exact cyclesSeen_cycleEnd_length ..
  case failure =>
    cases (step_read_failure hph hp hr).symm.trans ht
    exact .halts rfl

/-- From the wait in `EncodeAndWrite`, by the answer to the write (R156). -/
theorem stepEnd_encodeAndWrite (hph : s.phase = .encodeAndWrite) {w : List Byte} (hp : s.port = .writing w)
    (ht : step s = .next t) : StepEnd s t := by
  obtain ⟨-, -, hh, hport⟩ := (phaseInv_encodeAndWrite hph).1 h.inv.2.2
  obtain ⟨m, r, hm, hr, -⟩ := replyHeld_iff.1 hh
  have hwire : w = encodeEthernet (wrapReply m r s.localHA) := by
    rcases hport with ⟨hidle, -⟩ | ⟨w', hw', -, -, hwire⟩
    · cases hp.symm.trans hidle
    · cases hp.symm.trans hw'
      exact ((replyWritten_iff hm hr).1 hwire).symm
  have hstep : step s = phaseEncodeAndWrite s :=
    (step_eq_phaseStep (by simp [hph]) (by simp [hph])).trans (phaseStep_encodeAndWrite hph)
  rcases ha : s.wrAnswers with _ | ⟨a, rest⟩
  · cases (hstep.trans (phaseEncodeAndWrite_writing_blocked hm hr hwire hp ha)).symm.trans ht
    rw [loadTx_eq_self h.inv hph hp]
    exact .stays hph ⟨w, hp⟩ (.refl s)
  · cases (hstep.trans (phaseEncodeAndWrite_writing_answered hm hr hwire hp ha)).symm.trans ht
    obtain ⟨b, -, hb⟩ := h.shows.2 (by simp [UnderWay, hph])
    have hread : (observe s.trace).read = some (.frame b) := congrArg Prod.fst hb
    refine .ends rfl ?_
    rw [cyclesSeen, cyclesSeen, endCycle_trace, answerWrite_trace,
      observe_outcome (a := .frame b) (by rw [observe_writeAnswered, hread]), observe_writeAnswered]
    simp

/-- From where a step of a run ended, the next one ends in one of these ways. -/
theorem stepEnd_of_paused (hs : Paused s) (ht : step s = .next t) : StepEnd s t := by
  rcases hs with hph | hph | ⟨hph, w, hp⟩
  · exact stepEnd_readFrame h hph ht
  · cases (haltedChangesNothing s hph).1.symm.trans ht
    exact .halts hph
  · exact stepEnd_encodeAndWrite h hph hp ht

end

section
variable {s t : State}

/-- What is delivered before the step has no part in how it ends. -/
theorem StepEnd.of_deliver {rx : List ReadAnswer} {wr : List WriteAnswer} (h : StepEnd (deliver rx wr s) t) :
    StepEnd s t := by
  cases h with
  | halts ht => exact .halts ht
  | ends ht hc => exact .ends ht hc
  | readWaits hs ht hport htrace => exact .readWaits hs ht hport htrace
  | writes hs ht hport => exact .writes hs ht hport
  | stays hs hport h => exact .stays hs hport h

theorem StepEnd.paused (h : StepEnd s t) : Paused t := by
  cases h with
  | halts ht => exact .inr (.inl ht)
  | ends ht => exact .inl ht
  | readWaits _ ht => exact .inl ht
  | writes _ ht hport => exact .inr (.inr ⟨ht, hport⟩)
  | stays hs hport h => exact .inr (.inr ⟨h.1.trans hs, h.2.1 ▸ hport⟩)

/-- Where no cycle ends, a step that finds the reply in flight finds it unanswered (R224). -/
theorem StepEnd.stays_writing (h : StepEnd s t) (hs : s.phase = .encodeAndWrite) (ht : t.phase ≠ .halted)
    (hc : ¬(cyclesSeen s).length < (cyclesSeen t).length) : StaysAt s t := by
  cases h with
  | halts h => exact absurd h ht
  | ends _ h => exact absurd h hc
  | readWaits h | writes h => cases hs.symm.trans h
  | stays _ _ h => exact h

/-- Where no cycle ends, a step that leaves the core in `ReadFrame` finds no answer to the read (R195). -/
theorem StepEnd.read_unanswered (h : StepEnd s t) (ht : t.phase = .readFrame)
    (hc : ¬(cyclesSeen s).length < (cyclesSeen t).length) :
    t.port = .reading ∧ t.trace = s.trace ++ readIssue s.port := by
  cases h with
  | halts h | writes _ h => cases ht.symm.trans h
  | ends _ h => exact absurd h hc
  | readWaits _ _ hport htrace => exact ⟨hport, htrace⟩
  | stays hs _ h => cases ht.symm.trans (h.1.trans hs)

end

/-- No cycle that has been seen is lost by a step. -/
theorem cyclesSeen_length_le {s t : State} (h : Inv s) (ht : step s = .next t) :
    (cyclesSeen s).length ≤ (cyclesSeen t).length := by
  obtain ⟨es, hes, -⟩ := step_writesReplies h ht
  exact (observe_cycles_prefix ⟨es, hes.symm⟩).length_le

/-! ### A sequence of steps that does not halt (R164) -/

section
variable {x : Nat → State} (hend : ∀ n, StepEnd (x n) (x (n + 1))) {n : Nat}
  (hc : ∀ m, n ≤ m → ¬(cyclesSeen (x m)).length < (cyclesSeen (x (m + 1))).length)
include hend hc

/-- If no cycle ends from `n` on and the reply is in flight then, it is in flight for ever. -/
theorem staysAt_of_writing (hne : ∀ n, (x n).phase ≠ .halted) (hn : (x n).phase = .encodeAndWrite) {m : Nat}
    (hm : n ≤ m) : StaysAt (x n) (x m) := by
  induction m, hm using Nat.le_induction with
  | base => exact .refl _
  | succ m hm ih => exact ih.trans ((hend m).stays_writing (ih.1.trans hn) (hne _) (hc m hm))

/-- If no cycle ends from `n` on and the core is in `ReadFrame` from then on, the read issued by the step after is in
flight for ever. -/
theorem staysAt_of_reading (hn : ∀ m, n ≤ m → (x m).phase = .readFrame) {m : Nat} (hm : n + 1 ≤ m) :
    StaysAt (x (n + 1)) (x m) := by
  have hwait (k : Nat) (hk : n ≤ k) := (hend k).read_unanswered (hn (k + 1) (by omega)) (hc k hk)
  induction m, hm using Nat.le_induction with
  | base => exact .refl _
  | succ m hm ih =>
    obtain ⟨hport, htrace⟩ := hwait m (by omega)
    have hreading : (x m).port = .reading := ih.2.1.trans (hwait n le_rfl).1
    rw [hreading, readIssue, List.append_nil] at htrace
    exact ih.trans ⟨(hn (m + 1) (by omega)).trans (hn m (by omega)).symm, hport.trans hreading.symm, htrace⟩

end

/-- If from `n` on no cycle ends, a run that does not halt waits for ever: in the write, if a request is ever read, and
else in the read (R195, R224). -/
theorem runWaits_of_no_end {dev : Device} {s : State} {x : Nat → State} (hx : ∀ n, run dev n s = .next (x n))
    (hpaused : ∀ n, Paused (x n)) (hend : ∀ n, StepEnd (x n) (x (n + 1))) (hne : ∀ n, (x n).phase ≠ .halted) {n : Nat}
    (hc : ∀ m, n ≤ m → ¬(cyclesSeen (x m)).length < (cyclesSeen (x (m + 1))).length) : RunWaits dev s := by
  by_cases hw : ∃ m, n ≤ m ∧ (x m).phase = .encodeAndWrite
  · obtain ⟨m, hm, hph⟩ := hw
    have hport : ∃ w, (x m).port = .writing w := by simpa [Paused, hph] using hpaused m
    exact ⟨m, x m, hx m, .inr ⟨hph, hport⟩, fun k hk =>
      ⟨x k, hx k, staysAt_of_writing hend (fun j hj => hc j (hm.trans hj)) hne hph hk⟩⟩
  · have hread (m : Nat) (hm : n ≤ m) : (x m).phase = .readFrame := by
      rcases hpaused m with h | h | ⟨h, -⟩
      · exact h
      · exact absurd h (hne m)
      · exact absurd ⟨m, hm, h⟩ hw
    obtain ⟨hport, -⟩ := (hend n).read_unanswered (hread (n + 1) (by omega)) (hc n le_rfl)
    exact ⟨n + 1, x (n + 1), hx (n + 1), .inl ⟨hread (n + 1) (by omega), hport⟩, fun k hk =>
      ⟨x k, hx k, staysAt_of_reading hend hc hread hk⟩⟩

/-- A number that never falls, and rises again and again, passes every bound. -/
theorem exists_ge_of_rises {c : Nat → Nat} (hmono : Monotone c) (hrise : ∀ n, ∃ m, n ≤ m ∧ c m < c (m + 1)) (k : Nat) :
    ∃ n, k ≤ c n := by
  induction k with
  | zero => exact ⟨0, Nat.zero_le _⟩
  | succ k ih =>
    obtain ⟨n, hn⟩ := ih
    obtain ⟨m, hm, hlt⟩ := hrise n
    exact ⟨m + 1, lt_of_le_of_lt (hn.trans (hmono hm)) hlt⟩

/-- With a lawful device a run passes states in which its steps have ended, each from the one before (R164). -/
theorem exists_run_states {dev : Device} (hdev : Lawful dev) (la : HA) (lp : PA) :
    ∃ x : Nat → State, (∀ n, run dev n (resetWith la lp) = .next (x n)) ∧ (∀ n, Paused (x n)) ∧
      (∀ n, StepEnd (x n) (x (n + 1))) ∧ Monotone fun n => (cyclesSeen (x n)).length := by
  have hrun (n : Nat) : ∃ t, run dev n (resetWith la lp) = .next t ∧ Sound t ∧ Paused t :=
    runBy_invariant (P := fun _ t => Sound t ∧ Paused t) ⟨sound_resetWith la lp, .inl rfl⟩ (fun n t ⟨hs, hp⟩ => by
      have hd : Sound (deliver (dev n).1 (dev n).2 t) := hs.deliver (hdev n)
      obtain ⟨u, hu, hsu⟩ := hd.step
      exact ⟨u, hu, hsu, (stepEnd_of_paused hd hp hu).paused⟩) n
  choose x hx hsound hpaused using hrun
  have hd (n : Nat) : Sound (deliver (dev n).1 (dev n).2 (x n)) := (hsound n).deliver (hdev n)
  have hstep (n : Nat) : step (deliver (dev n).1 (dev n).2 (x n)) = .next (x (n + 1)) :=
    (run_succ_eq (hx n)).symm.trans (hx (n + 1))
  exact ⟨x, hx, hpaused, fun n => (stepEnd_of_paused (hd n) (hpaused n) (hstep n)).of_deliver,
    monotone_nat_of_le_succ fun n =>
      cyclesSeen_length_le (s := deliver (dev n).1 (dev n).2 (x n)) (hd n).inv (hstep n)⟩

/-- R164: a run halts, or is an infinite sequence of cycles, or waits for ever: if from some step on no cycle ends, it
waits, and else there is no bound to their number. -/
theorem run_halts_or_goesOn_or_waits {dev : Device} (hdev : Lawful dev) (la : HA) (lp : PA) :
    RunHalts dev (resetWith la lp) ∨ RunGoesOn dev (resetWith la lp) ∨ RunWaits dev (resetWith la lp) := by
  obtain ⟨x, hx, hpaused, hend, hmono⟩ := exists_run_states hdev la lp
  by_cases hh : ∃ n, (x n).phase = .halted
  · obtain ⟨n, hn⟩ := hh
    exact .inl ⟨n, x n, hx n, hn⟩
  by_cases hc : ∃ n, ∀ m, n ≤ m → ¬(cyclesSeen (x m)).length < (cyclesSeen (x (m + 1))).length
  · obtain ⟨n, hc⟩ := hc
    exact .inr (.inr (runWaits_of_no_end hx hpaused hend (not_exists.1 hh) hc))
  · push Not at hc
    refine .inr (.inl fun k => ?_)
    obtain ⟨n, hn⟩ := exists_ge_of_rises hmono hc k
    exact ⟨n, x n, hx n, hn⟩

/-- Settles O10: the run keeps the invariant and what it shows; it halts, goes on or waits; and the run by phases passes
its states. -/
theorem runHaltsGoesOnWaitsOrIsStopped : Obligations.RunHaltsGoesOnWaitsOrIsStopped := by
  intro la lp dev hdev
  refine ⟨fun n => ?_, run_halts_or_goesOn_or_waits hdev la lp, fun n t ht => run_stoppable hdev la lp ht, fun n => ?_,
    ?_, ?_, fun p => ?_⟩
  · obtain ⟨t, ht, hs⟩ := run_sound hdev la lp n
    exact ⟨t, ht, hs.inv⟩
  · obtain ⟨t, ht, -⟩ := phaseRun_sound hdev la lp n
    exact ⟨t, ht⟩
  · rintro t ⟨n, ht⟩
    obtain ⟨u, hu, hs⟩ := phaseRun_sound hdev la lp n
    cases hu.symm.trans ht
    exact ⟨hs.inv, hs.shows.1, fun hr hh => hs.shows.2 ⟨hr, hh⟩⟩
  · rintro h ⟨t, ht, hpre⟩
    exact ⟨t, ht, observe_cycles_prefix hpre⟩
  · obtain ⟨t, ⟨dev', hdev', hstop⟩, hp⟩ := exists_stoppable la lp p
    exact ⟨dev', hdev', t, hstop, hp⟩

end Sys2Proof.Machine
end

section
/-! PROOFS. The device's failures and the outcomes (60_exceptions.md R180 to R186): a failed write ends the cycle as any
other, a failed read halts the core. -/

namespace Sys2Proof.Machine

/-! ### A failed write (R186) -/

/-- The instructions of class `ARP_REQUEST` (R84). -/
theorem exists_arpRequest_of_classOf {i : Instr} (hc : classOf i = some .arpRequest) :
    ∃ dst src sha spa tha tpa tail, i = .arpRequest dst src sha spa tha tpa tail := by
  cases i with
  | arpRequest => exact ⟨_, _, _, _, _, _, _, rfl⟩
  | _ => cases hc

/-- Settles O53: `answered` holds the device's answer, whatever it is, in the trace alone. -/
theorem writeFailureIsNotFatal : Obligations.WriteFailureIsNotFatal := by
  intro i k rest s hc h hp
  obtain ⟨dst, src, sha, spa, tha, tpa, tail, rfl⟩ := exists_arpRequest_of_classOf hc
  have hexec (a : WriteAnswer) : exec (.arpRequest dst src sha spa tha tpa tail) { s with wrAnswers := a :: rest } =
      .next (answered (replyWire s.localHA sha spa tpa) a rest s) :=
    exec_arpRequest_answered (s := { s with wrAnswers := a :: rest }) h hp rfl dst src sha spa tha tpa tail
  exact ⟨_, _, hexec .failure, rfl, rfl, rfl, hexec (.wrote k)⟩

/-! ### A failed read (R185) -/

/-- A read failure writes no frame. -/
theorem framesWritten_readFailed (rest : List ReadAnswer) (s : State) :
    framesWritten (readFailed rest s).trace = framesWritten s.trace := by
  have hevents : framesWritten [.readAnswered .failure, .outcome .readFailed] = [] := rfl
  rw [readFailed_trace, framesWritten_append, framesWritten_append, framesWritten_readIssue, hevents,
    List.append_nil, List.append_nil]

/-- Settles O52: the step ends in `readFailed`, which is `Halted`, where a further step does nothing (R157). -/
theorem readFailureHaltsTheCore : Obligations.ReadFailureHaltsTheCore := by
  intro s rest hph hp hr
  obtain ⟨hstay, -⟩ := haltedChangesNothing (readFailed rest s) (readFailed_phase rest s)
  exact ⟨_, step_read_failure hph hp hr, readFailed_phase rest s, rfl, rfl, framesWritten_readFailed rest s,
    readFailed_trace rest s, rfl, rfl, rfl, hstay⟩

/-! ### The outcomes and their error classes (R180, R181, R183) -/

/-- Of the error classes only the device's read failure is fatal (R180). -/
theorem errorIsFatal_iff {e : ErrorClass} : errorIsFatal e = true ↔ e = .deviceReadFailure := by
  cases e <;> decide

/-- Only one outcome is of that class (R181). -/
theorem outcomeErrorClass_eq_deviceReadFailure_iff {c : OutcomeCode} :
    outcomeErrorClass c = some .deviceReadFailure ↔ c = .readFailed := by
  cases c <;> decide

/-- The drops, codes 1 to 5, by error class (R183). -/
theorem isDrop_iff {c : OutcomeCode} :
    isDrop c = true ↔ outcomeErrorClass c = some .frameTooShort ∨ outcomeErrorClass c = some .unsupported := by
  cases c <;> decide

/-- Settles O60: an outcome is fatal just if its error class is the one that is fatal. -/
theorem outcomeCodesAndClasses : Obligations.OutcomeCodesAndClasses := by
  refine ⟨rfl, rfl, fun c => ?_, fun c => isDrop_iff⟩
  simp only [errorIsFatal_iff, exists_eq_right, outcomeErrorClass_eq_deviceReadFailure_iff]

end Sys2Proof.Machine
end

section
/-! PROOFS. The environment's reset (70_reset_and_hazards.md R210, R211, R214): nothing from before it is used, and the
cycle after it begins with its read. -/

namespace Sys2Proof.Machine

/-- From `ReadFrame`, whatever a lawful device answers, the first thing a step records is the issue of the cycle's read,
unless that read is already in flight (R151, R195). -/
theorem step_records_readIssue {s : State} (hph : s.phase = .readFrame) (hp : s.port = .idle ∨ s.port = .reading)
    (hd : ∀ a ∈ s.rxAnswers, answerLength a ≤ Config.maxLen) :
    ∃ t es, step s = .next t ∧ t.trace = s.trace ++ readIssue s.port ++ es := by
  rcases hr : s.rxAnswers with _ | ⟨a, rest⟩
  · exact ⟨_, [], step_read_blocked hph hp hr, by simp⟩
  cases a with
  | failure => exact ⟨_, _, step_read_failure hph hp hr, readFailed_trace rest s⟩
  | frame b =>
    have hl : b.length ≤ Config.maxLen := hd (.frame b) (by simp [hr])
    obtain ⟨i, hw, he⟩ := exists_encode hl
    obtain ⟨t, ht, -, -, es, htrace, -⟩ := step_recordsCycle hph hp hr hw he
    exact ⟨t, _, ht, htrace⟩

/-- Of the state before it the reset keeps the trace alone (R210; log entry 15). -/
theorem hostReset_congr {s s' : State} (h : s.trace = s'.trace) (la : HA) (lp : PA) (rx : List ReadAnswer)
    (wr : List WriteAnswer) : hostReset la lp rx wr s = hostReset la lp rx wr s' := by
  simp only [hostReset, h]

/-- Settles O59: the reset leaves the core in `ReadFrame` with an idle port, where the step issues its read. -/
theorem hostResetForgetsEverything : Obligations.HostResetForgetsEverything := by
  intro la lp rx wr s s'
  refine ⟨rfl, fun h => hostReset_congr h la lp rx wr, fun hd => ?_⟩
  obtain ⟨t, es, ht, htrace⟩ :=
    step_records_readIssue (hostReset_phase s la lp rx wr) (.inl (hostReset_port s la lp rx wr)) hd
  exact ⟨t, es, ht, by simpa [readIssue] using htrace⟩

end Sys2Proof.Machine
end
